-- ==== Sys2Proof/Word.lean ====
section
/-! DEFINITION. The word types of the block: the command word of `30_encoding.md` R80 and the field types u8, u16 and u32 of
`00_scope.md` R8. -/

namespace Sys2Proof

/-- A command word (R80): one 64-bit value, bit 0 the least significant (R9). -/
abbrev CmdWord := BitVec 64

/-- The type u8 of R8. -/
abbrev U8 := BitVec 8

/-- The type u16 of R8. -/
abbrev U16 := BitVec 16

/-- The type u32 of R8; a field of type s32 is held in it too, in two's complement, and read with `BitVec.toInt`. -/
abbrev U32 := BitVec 32

end Sys2Proof
end

