-- ==== Sys2Proof/Syntax.lean ====
section
/-! DEFINITION. The enumerations of `10_state.md` R22 and the operations of the block, one constructor of `Instr` per row of
`opcode_table.json` (`30_encoding.md` R84, operands in the order of R91). -/

namespace Sys2Proof

/-- The two axes (R22). -/
inductive Axis where
  | h
  | v
  deriving DecidableEq, Repr, Inhabited

/-- The direction of a DriveCommand (R22). -/
inductive Dir where
  | idle
  | forward
  | reverse
  deriving DecidableEq, Repr, Inhabited

/-- The operating modes (R22, R33). -/
inductive Mode where
  | manual
  | calibration
  | automatic
  deriving DecidableEq, Repr, Inhabited

/-- One operation of the block with its assembled operands (R82). Signed operands and counts are integers, so an operand may
lie outside the range its field can hold: `Instr.wellFormed` says when it does not. -/
inductive Instr where
  /-- `SET_DRIVE axis, dir, mag` (R100); `mag` is the s32 magnitude before clamping. -/
  | setDrive (axis : Axis) (dir : Dir) (mag : Int)
  /-- `DISABLE_ALL` (R108). -/
  | disableAll
  /-- `TICK` (R104). -/
  | tick
  /-- `SAMPLE raw` (R130); `raw` is unsigned. -/
  | sample (raw : U32)
  /-- `PID_STEP err_in, n` (R158); `n` is the `dt` count. -/
  | pidStep (errIn : Int) (n : Nat)
  /-- `CTRL_STEP n` (R159). -/
  | ctrlStep (n : Nat)
  /-- `SET_SETPOINT sp` (R160). -/
  | setSetpoint (sp : Int)
  /-- `SET_CONTROL en` (R161). -/
  | setControl (en : Bool)
  /-- `SET_KP g` (R162); `g` is the binary32 bit pattern. -/
  | setKp (g : U32)
  /-- `SET_KI g` (R163). -/
  | setKi (g : U32)
  /-- `SET_KD g` (R164). -/
  | setKd (g : U32)
  /-- `GET_GAINS` (R166). -/
  | getGains
  /-- `SET_MODE mode` (R191); values 3 to 15 are legal and ignored (R87). -/
  | setMode (mode : Nat)
  /-- `SUPERVISOR_STEP btnH, btnV, swH, swV` (R193). -/
  | supervisorStep (btnH btnV swH swV : Bool)
  deriving DecidableEq, Repr

end Sys2Proof
end

