-- ==== Sys2Proof/WellFormed.lean ====
section
/-! DEFINITION. When an operation's operands fit the fields that carry them (`30_encoding.md` R80, R82): the operations that some
legal command word stands for. -/

namespace Sys2Proof

/-- `x` is a value of type s32 (R8). -/
def fitsS32 (x : Int) : Bool := decide (-2 ^ 31 ≤ x) && decide (x < 2 ^ 31)

/-- `n` is a value of type u16 (R8): the `dt` count of R82. -/
def fitsU16 (n : Nat) : Bool := decide (n < 2 ^ 16)

/-- `n` fits the 4-bit field FA (R80). -/
def fitsU4 (n : Nat) : Bool := decide (n < 2 ^ 4)

/-- Every operand lies in the range of its field (R82). The operands whose types already say so need no check. -/
def Instr.wellFormed : Instr → Bool
  | .setDrive _ _ mag => fitsS32 mag
  | .disableAll => true
  | .tick => true
  | .sample _ => true
  | .pidStep errIn n => fitsS32 errIn && fitsU16 n
  | .ctrlStep n => fitsU16 n
  | .setSetpoint sp => fitsS32 sp
  | .setControl _ => true
  | .setKp _ => true
  | .setKi _ => true
  | .setKd _ => true
  | .getGains => true
  | .setMode mode => fitsU4 mode
  | .supervisorStep _ _ _ _ => true

end Sys2Proof
end

