-- ==== Sys2Proof/Decode.lean ====
section
/-! DEFINITION. Decoding of command words (`30_encoding.md` R80 to R89), total over all 2^64 words and rejecting by name, and the
encoder, both written from the tables of R84 and R85. -/

namespace Sys2Proof

/-- The operation codes of R84. -/
inductive Opcode where
  | setDrive | disableAll | tick | sample | pidStep | ctrlStep | setSetpoint
  | setControl | setKp | setKi | setKd | getGains | setMode | supervisorStep
  deriving DecidableEq, Repr

/-- The column OPC of R84. -/
def Opcode.byte : Opcode → BitVec 8
  | .setDrive => 0x01
  | .disableAll => 0x02
  | .tick => 0x03
  | .sample => 0x10
  | .pidStep => 0x20
  | .ctrlStep => 0x21
  | .setSetpoint => 0x22
  | .setControl => 0x23
  | .setKp => 0x24
  | .setKi => 0x25
  | .setKd => 0x26
  | .getGains => 0x27
  | .setMode => 0x30
  | .supervisorStep => 0x31

/-- The column "match" of R85. -/
def Opcode.pattern : Opcode → CmdWord
  | .setDrive => 0x0100000000000000
  | .disableAll => 0x0200000000000000
  | .tick => 0x0300000000000000
  | .sample => 0x1000000000000000
  | .pidStep => 0x2000000000000000
  | .ctrlStep => 0x2100000000000000
  | .setSetpoint => 0x2200000000000000
  | .setControl => 0x2300000000000000
  | .setKp => 0x2400000000000000
  | .setKi => 0x2500000000000000
  | .setKd => 0x2600000000000000
  | .getGains => 0x2700000000000000
  | .setMode => 0x3000000000000000
  | .supervisorStep => 0x3100000000000000

/-- The column "mask" of R85. -/
def Opcode.mask : Opcode → CmdWord
  | .setDrive => 0xFF00FFFF00000000
  | .disableAll => 0xFFFFFFFFFFFFFFFF
  | .tick => 0xFFFFFFFFFFFFFFFF
  | .sample => 0xFFFFFFFF00000000
  | .pidStep => 0xFFFF000000000000
  | .ctrlStep => 0xFFFF0000FFFFFFFF
  | .setSetpoint => 0xFFFFFFFF00000000
  | .setControl => 0xFF0FFFFFFFFFFFFF
  | .setKp => 0xFFFFFFFF00000000
  | .setKi => 0xFFFFFFFF00000000
  | .setKd => 0xFFFFFFFF00000000
  | .getGains => 0xFFFFFFFFFFFFFFFF
  | .setMode => 0xFF0FFFFFFFFFFFFF
  | .supervisorStep => 0xFF0FFFFFFFFFFFFF

/-- Every operation code, in the order of the table. -/
def Opcode.all : List Opcode :=
  [.setDrive, .disableAll, .tick, .sample, .pidStep, .ctrlStep, .setSetpoint, .setControl, .setKp, .setKi, .setKd, .getGains,
    .setMode, .supervisorStep]

/-- A word selects the row of R85 for the operation `op`: `w AND mask = match`. -/
def Opcode.selectedBy (op : Opcode) (w : CmdWord) : Bool := w &&& op.mask == op.pattern

/-- The row an OPC value names in R84, if it names one. -/
def Opcode.ofByte (b : BitVec 8) : Option Opcode := Opcode.all.find? fun op => op.byte == b

/-- The fields of R80. -/
structure Fields where
  opc : BitVec 8
  fa : BitVec 4
  fb : BitVec 4
  h16 : BitVec 16
  imm : BitVec 32
  deriving DecidableEq, Repr

/-- Field extraction, R81. -/
def fieldsOf (w : CmdWord) : Fields where
  opc := w.extractLsb' 56 8
  fa := w.extractLsb' 52 4
  fb := w.extractLsb' 48 4
  h16 := w.extractLsb' 32 16
  imm := w.extractLsb' 0 32

/-- The word with the given fields (R80): the `++` of R9. -/
def wordOf (f : Fields) : CmdWord := (f.opc ++ f.fa ++ f.fb ++ f.h16 ++ f.imm).cast rfl

/-- Why a word is illegal: the cases (a) to (d) of R86. All of them raise `ILLEGAL`. -/
inductive DecodeError where
  /-- (a) OPC is not in R84. -/
  | unassignedOpcode
  /-- (b) A field that R85 marks 0 is not zero. -/
  | mustBeZero
  /-- (c) `SET_DRIVE` with `FA ≥ 2`. -/
  | axisOutOfRange
  /-- (c) `SET_DRIVE` with `FB ≥ 3`. -/
  | directionOutOfRange
  /-- (d) `SET_CONTROL` with `FA ≥ 2`. -/
  | enableOutOfRange
  deriving DecidableEq, Repr

/-- The encoding of `Axis` in R22; 2 to 15 are illegal (R82). -/
def Axis.ofField (b : BitVec 4) : Option Axis :=
  match b.toNat with
  | 0 => some .h
  | 1 => some .v
  | _ => none

/-- The encoding of `Axis` in R22. -/
def Axis.toField : Axis → BitVec 4
  | .h => 0
  | .v => 1

/-- The encoding of `Dir` in R22; 3 to 15 are illegal (R82). -/
def Dir.ofField (b : BitVec 4) : Option Dir :=
  match b.toNat with
  | 0 => some .idle
  | 1 => some .forward
  | 2 => some .reverse
  | _ => none

/-- The encoding of `Dir` in R22. -/
def Dir.toField : Dir → BitVec 4
  | .idle => 0
  | .forward => 1
  | .reverse => 2

/-- The operand `en` of R82: 0 or 1; 2 to 15 are illegal. -/
def enableOfField (b : BitVec 4) : Option Bool :=
  match b.toNat with
  | 0 => some false
  | 1 => some true
  | _ => none

/-- The operand `en` as a field (R82). -/
def enableToField : Bool → BitVec 4
  | false => 0
  | true => 1

/-- The levels of `SUPERVISOR_STEP` as the field FA (R82, R91): `btnH + 2·btnV + 4·swH + 8·swV`. -/
def inputsToField (btnH btnV swH swV : Bool) : BitVec 4 :=
  BitVec.ofNat 4 (btnH.toNat + 2 * btnV.toNat + 4 * swH.toNat + 8 * swV.toNat)

/-- `if` the fields that R85 marks 0 are zero `then` the operation, `else` case (b) of R86. -/
def requireZero (zero : Bool) (r : Except DecodeError Instr) : Except DecodeError Instr :=
  if zero then r else .error .mustBeZero

/-- The operands of `SET_DRIVE` (R82, R86 case (c)). -/
def decodeSetDrive (f : Fields) : Except DecodeError Instr :=
  match Axis.ofField f.fa, Dir.ofField f.fb with
  | some a, some d => .ok (.setDrive a d f.imm.toInt)
  | none, _ => .error .axisOutOfRange
  | some _, none => .error .directionOutOfRange

/-- The operand of `SET_CONTROL` (R82, R86 case (d)). -/
def decodeSetControl (f : Fields) : Except DecodeError Instr :=
  match enableOfField f.fa with
  | some en => .ok (.setControl en)
  | none => .error .enableOutOfRange

/-- The must-be-zero fields and the operands of one row (R85, R82, R86 cases (b) to (d)). -/
def decodeFields (op : Opcode) (f : Fields) : Except DecodeError Instr :=
  match op with
  | .setDrive => requireZero (f.h16 == 0) (decodeSetDrive f)
  | .disableAll => requireZero (f.fa == 0 && f.fb == 0 && f.h16 == 0 && f.imm == 0) (.ok .disableAll)
  | .tick => requireZero (f.fa == 0 && f.fb == 0 && f.h16 == 0 && f.imm == 0) (.ok .tick)
  | .sample => requireZero (f.fa == 0 && f.fb == 0 && f.h16 == 0) (.ok (.sample f.imm))
  | .pidStep => requireZero (f.fa == 0 && f.fb == 0) (.ok (.pidStep f.imm.toInt f.h16.toNat))
  | .ctrlStep => requireZero (f.fa == 0 && f.fb == 0 && f.imm == 0) (.ok (.ctrlStep f.h16.toNat))
  | .setSetpoint => requireZero (f.fa == 0 && f.fb == 0 && f.h16 == 0) (.ok (.setSetpoint f.imm.toInt))
  | .setControl => requireZero (f.fb == 0 && f.h16 == 0 && f.imm == 0) (decodeSetControl f)
  | .setKp => requireZero (f.fa == 0 && f.fb == 0 && f.h16 == 0) (.ok (.setKp f.imm))
  | .setKi => requireZero (f.fa == 0 && f.fb == 0 && f.h16 == 0) (.ok (.setKi f.imm))
  | .setKd => requireZero (f.fa == 0 && f.fb == 0 && f.h16 == 0) (.ok (.setKd f.imm))
  | .getGains => requireZero (f.fa == 0 && f.fb == 0 && f.h16 == 0 && f.imm == 0) (.ok .getGains)
  | .setMode => requireZero (f.fb == 0 && f.h16 == 0 && f.imm == 0) (.ok (.setMode f.fa.toNat))
  | .supervisorStep =>
    requireZero (f.fb == 0 && f.h16 == 0 && f.imm == 0)
      (.ok (.supervisorStep (f.fa.getLsbD 0) (f.fa.getLsbD 1) (f.fa.getLsbD 2) (f.fa.getLsbD 3)))

/-- `decode(w)` of R89. -/
def decode (w : CmdWord) : Except DecodeError Instr :=
  match Opcode.ofByte (fieldsOf w).opc with
  | none => .error .unassignedOpcode
  | some op => decodeFields op (fieldsOf w)

/-- The row of R85 an operation belongs to. -/
def Instr.opcode : Instr → Opcode
  | .setDrive _ _ _ => .setDrive
  | .disableAll => .disableAll
  | .tick => .tick
  | .sample _ => .sample
  | .pidStep _ _ => .pidStep
  | .ctrlStep _ => .ctrlStep
  | .setSetpoint _ => .setSetpoint
  | .setControl _ => .setControl
  | .setKp _ => .setKp
  | .setKi _ => .setKi
  | .setKd _ => .setKd
  | .getGains => .getGains
  | .setMode _ => .setMode
  | .supervisorStep _ _ _ _ => .supervisorStep

/-- The fields of an operation's word: operands in place (R82), every other field zero (R85). -/
def Instr.fields : Instr → Fields
  | .setDrive a d mag => ⟨Opcode.setDrive.byte, a.toField, d.toField, 0, BitVec.ofInt 32 mag⟩
  | .disableAll => ⟨Opcode.disableAll.byte, 0, 0, 0, 0⟩
  | .tick => ⟨Opcode.tick.byte, 0, 0, 0, 0⟩
  | .sample raw => ⟨Opcode.sample.byte, 0, 0, 0, raw⟩
  | .pidStep errIn n => ⟨Opcode.pidStep.byte, 0, 0, BitVec.ofNat 16 n, BitVec.ofInt 32 errIn⟩
  | .ctrlStep n => ⟨Opcode.ctrlStep.byte, 0, 0, BitVec.ofNat 16 n, 0⟩
  | .setSetpoint sp => ⟨Opcode.setSetpoint.byte, 0, 0, 0, BitVec.ofInt 32 sp⟩
  | .setControl en => ⟨Opcode.setControl.byte, enableToField en, 0, 0, 0⟩
  | .setKp g => ⟨Opcode.setKp.byte, 0, 0, 0, g⟩
  | .setKi g => ⟨Opcode.setKi.byte, 0, 0, 0, g⟩
  | .setKd g => ⟨Opcode.setKd.byte, 0, 0, 0, g⟩
  | .getGains => ⟨Opcode.getGains.byte, 0, 0, 0, 0⟩
  | .setMode mode => ⟨Opcode.setMode.byte, BitVec.ofNat 4 mode, 0, 0, 0⟩
  | .supervisorStep btnH btnV swH swV => ⟨Opcode.supervisorStep.byte, inputsToField btnH btnV swH swV, 0, 0, 0⟩

/-- The command word of a well-formed operation (R85). -/
def encode (i : Instr) : CmdWord := wordOf i.fields

/-- The word whose low `nbits` bits are those of `w` and whose other bits are 0: one command word is one 64-bit value, bit 0
its least significant (R9, R61). -/
def tableWord (nbits w : Nat) : CmdWord := BitVec.ofNat 64 (w % 2 ^ nbits)

/-- What `decode` reads from the table word with the bits `w`. -/
def decodeTableWord (nbits w : Nat) : Option Instr := (decode (tableWord nbits w)).toOption

end Sys2Proof
end

