-- ==== Sys2Proof/Config.lean ====
section
/-! DEFINITION. The named parameters of the block (`00_scope.md` R6), the constraints they satisfy (R7), the spec's test
configuration TC (`95_test_vectors.md`) and the parameters of the block at hand, which no proof can see. -/

namespace Sys2Proof

/-- One value per axis: the indexing `x[a]` of R10 for a in (H, V). -/
structure PerAxis (α : Type) where
  h : α
  v : α
  deriving DecidableEq, Repr, Inhabited

/-- `x[a]` (R10). -/
def PerAxis.get {α : Type} (p : PerAxis α) : Axis → α
  | .h => p.h
  | .v => p.v

/-- `x[a] <- e` (R10). -/
def PerAxis.set {α : Type} (p : PerAxis α) (a : Axis) (e : α) : PerAxis α :=
  match a with
  | .h => { p with h := e }
  | .v => { p with v := e }

/-- The three gains P, I, D that `GAIN_MIN[k]` and `GAIN_MAX[k]` are indexed by (R6). -/
inductive Gain where
  | p
  | i
  | d
  deriving DecidableEq, Repr, Inhabited

/-- One value per gain (R6). -/
structure PerGain (α : Type) where
  p : α
  i : α
  d : α
  deriving DecidableEq, Repr, Inhabited

/-- `x[k]` for a gain k (R6). -/
def PerGain.get {α : Type} (g : PerGain α) : Gain → α
  | .p => g.p
  | .i => g.i
  | .d => g.d

/-- One value per open-loop rotation k = 0..3 (R6). -/
structure PerRotation (α : Type) where
  r0 : α
  r1 : α
  r2 : α
  r3 : α
  deriving DecidableEq, Repr, Inhabited

/-- `x[k]` for a rotation k (R6). -/
def PerRotation.get {α : Type} (r : PerRotation α) (k : Fin 4) : α :=
  match k with
  | 0 => r.r0
  | 1 => r.r1
  | 2 => r.r2
  | 3 => r.r3

/-- A direction of motion: the set (Forward, Reverse) of `DIR_POS` and `ROT_DIR[k]` (R6). -/
inductive Heading where
  | forward
  | reverse
  deriving DecidableEq, Repr, Inhabited

/-- A heading as a direction of R22. -/
def Heading.toDir : Heading → Dir
  | .forward => .forward
  | .reverse => .reverse

/-- `opposite` of R11. -/
def Heading.opposite : Heading → Heading
  | .forward => .reverse
  | .reverse => .forward

/-- The set (+1, -1) of `GRAVITY_SIGN` (R6). -/
inductive Sgn where
  | pos
  | neg
  deriving DecidableEq, Repr, Inhabited

/-- The parameters of R6, in the order of its table. Values of type s32 are held in 32 bits (R8). -/
structure Params where
  /-- `FRAME_TICKS` -/
  frameTicks : Nat
  /-- `ON_TICKS` -/
  onTicks : Nat
  /-- `PW_IDLE[a]` -/
  pwIdle : PerAxis U16
  /-- `PW_FWD[a]` -/
  pwFwd : PerAxis U16
  /-- `PW_REV[a]` -/
  pwRev : PerAxis U16
  /-- `ALPHA` -/
  alpha : Nat
  /-- `SCALE` -/
  scale : Nat
  /-- `DEADZONE`, in millimetres -/
  deadzone : Nat
  /-- `I_MIN` -/
  iMin : Rat
  /-- `I_MAX` -/
  iMax : Rat
  /-- `G_COMP` -/
  gComp : Rat
  /-- `GRAVITY_SIGN` -/
  gravitySign : Sgn
  /-- `U_MIN` -/
  uMin : Rat
  /-- `U_MAX` -/
  uMax : Rat
  /-- `DIR_POS` -/
  dirPos : Heading
  /-- `DT_UNIT` -/
  dtUnit : Rat
  /-- `SP_MIN` -/
  spMin : U32
  /-- `SP_MAX` -/
  spMax : U32
  /-- `SP_RESET` -/
  spReset : U32
  /-- `GAIN_MIN[k]` -/
  gainMin : PerGain Rat
  /-- `GAIN_MAX[k]` -/
  gainMax : PerGain Rat
  /-- `KP_RESET`, `KI_RESET`, `KD_RESET` -/
  gainReset : PerGain Rat
  /-- `PID_CLEAR_ON_ENABLE` -/
  pidClearOnEnable : Bool
  /-- `MANUAL_MAG` -/
  manualMag : Int
  /-- `CAL_HOME_MM` -/
  calHome : U32
  /-- `CAL_FAR_MM` -/
  calFar : U32
  /-- `AUTO_HOME_MM` -/
  autoHome : U32
  /-- `AUTO_LATCH_MM` -/
  autoLatch : U32
  /-- `AUTO_SHELF_MM` -/
  autoShelf : U32
  /-- `AUTO_DROP_MM` -/
  autoDrop : U32
  /-- `ROT_STEPS[k]` -/
  rotSteps : PerRotation Nat
  /-- `ROT_DIR[k]` -/
  rotDir : PerRotation Heading
  /-- `ROT_MAG` -/
  rotMag : Int
  deriving DecidableEq, Repr

/-- The constraints of R7 (and `DT_UNIT > 0` of R6). The three upper bounds 2^32 are DEDUCED (log 2): the fields that hold
these values are of type u32 (R23, R35) and no operation wraps (R8). -/
structure Params.Valid (p : Params) : Prop where
  frame_pos : 1 ≤ p.frameTicks
  on_pos : 1 ≤ p.onTicks
  frame_u32 : p.frameTicks < 2 ^ 32
  on_u32 : p.onTicks < 2 ^ 32
  alpha_pos : 1 ≤ p.alpha
  alpha_le : p.alpha ≤ p.scale
  iMin_le : p.iMin ≤ 0
  le_iMax : 0 ≤ p.iMax
  gComp_pos : 0 < p.gComp
  gComp_le : p.gComp ≤ 1
  uMin_ge : -100 ≤ p.uMin
  uMin_neg : p.uMin < 0
  uMax_pos : 0 < p.uMax
  uMax_le : p.uMax ≤ 100
  dtUnit_pos : 0 < p.dtUnit
  spMin_le : p.spMin.toInt ≤ p.spMax.toInt
  spReset_ge : p.spMin.toInt ≤ p.spReset.toInt
  spReset_le : p.spReset.toInt ≤ p.spMax.toInt
  gain_le : ∀ k, p.gainMin.get k ≤ p.gainMax.get k
  gainReset_ge : ∀ k, p.gainMin.get k ≤ p.gainReset.get k
  gainReset_le : ∀ k, p.gainReset.get k ≤ p.gainMax.get k
  rot_pos : ∀ k, 1 ≤ p.rotSteps.get k
  rot_u32 : ∀ k, p.rotSteps.get k < 2 ^ 32

/-- The test configuration TC of `95_test_vectors.md`: the spec's choice for its vectors only, not a claim about the crane. -/
def Params.tc : Params where
  frameTicks := 10
  onTicks := 2
  pwIdle := ⟨1500, 1500⟩
  pwFwd := ⟨1700, 1700⟩
  pwRev := ⟨1300, 1300⟩
  alpha := 1
  scale := 4
  deadzone := 5
  iMin := -100
  iMax := 100
  gComp := 1 / 2
  gravitySign := .neg
  uMin := -40
  uMax := 60
  dirPos := .forward
  dtUnit := 1
  spMin := 50
  spMax := 400
  spReset := 50
  gainMin := ⟨0, 0, 0⟩
  gainMax := ⟨1000, 1000, 1000⟩
  gainReset := ⟨0, 0, 0⟩
  pidClearOnEnable := true
  manualMag := 60
  calHome := 100
  calFar := 300
  autoHome := 100
  autoLatch := 80
  autoShelf := 250
  autoDrop := 120
  rotSteps := ⟨3, 2, 2, 3⟩
  rotDir := ⟨.forward, .forward, .forward, .reverse⟩
  rotMag := 50

/-- TC meets R7, as `95_test_vectors.md` says; so a configuration that meets R7 exists. -/
theorem Params.tc_valid : Params.tc.Valid where
  frame_pos := by decide
  on_pos := by decide
  frame_u32 := by decide
  on_u32 := by decide
  alpha_pos := by decide
  alpha_le := by decide
  iMin_le := by decide +kernel
  le_iMax := by decide +kernel
  gComp_pos := by decide +kernel
  gComp_le := by decide +kernel
  uMin_ge := by decide +kernel
  uMin_neg := by decide +kernel
  uMax_pos := by decide +kernel
  uMax_le := by decide +kernel
  dtUnit_pos := by decide +kernel
  spMin_le := by decide
  spReset_ge := by decide
  spReset_le := by decide
  gain_le := fun k => by cases k <;> decide +kernel
  gainReset_ge := fun k => by cases k <;> decide +kernel
  gainReset_le := fun k => by cases k <;> decide +kernel
  rot_pos := by decide
  rot_u32 := by decide

/-- A set of parameters that meets R7: one that does not is refused before the run (R7, S8), since no value of this type
holds it. The field values below only show that the type has a value. -/
structure Deployment where
  params : Params := Params.tc
  valid : params.Valid := by exact Params.tc_valid
  deriving Inhabited

/-- The parameters of the block at hand (DESIGN CHOICE, log 1): fixed for a whole run (R272) and otherwise unknown. It has no body, so a
statement about it holds whatever the parameters are. -/
opaque Config.deployed : Deployment

end Sys2Proof
end

