-- ==== Sys2Proof/Machine/State.lean ====
section
/-! DEFINITION. The state of the block: every field of `10_state.md` (R20 to R37), and three fields of the model's own, the
parameters of the run, the command port and the last response. The state after reset is R270's. -/

namespace Sys2Proof.Machine

/-- A servo bank `srv[a]` (R23). -/
structure Servo where
  /-- `idle_pw`: always `PW_IDLE[a]`, written by nothing (R24). -/
  idlePw : U16
  activePw : U16
  onPeriod : U32
  offPeriod : U32
  elapsed : U32
  driveActive : Bool
  cmdDir : Dir
  cmdMag : U8
  deriving DecidableEq, Repr

/-- An output channel `out[a]` (R26): the compare register and the enable of the PWM timer (R251). -/
structure Channel where
  en : Bool
  pw : U16
  deriving DecidableEq, Repr

/-- The median window `flt.win[0..2]` (R28). -/
structure Window where
  w0 : U32
  w1 : U32
  w2 : U32
  deriving DecidableEq, Repr

/-- The filter state `flt` (R28). -/
structure Filter where
  win : Window
  cursor : Fin 3
  y : U32
  primed : Bool
  deriving DecidableEq, Repr

/-- The controller state `ctl` (R30); `setpoint` is an s32. -/
structure Controller where
  kp : Rat
  ki : Rat
  kd : Rat
  integ : Rat
  prevErr : Int
  enabled : Bool
  setpoint : U32
  deriving DecidableEq, Repr

/-- The supervisor state `sup` (R33 to R36): the mode, the sub-state counters with the ranges R34 gives them, and the
rotation counter. -/
structure Supervisor where
  mode : Mode
  subMan : BitVec 1
  subCal : Fin 9
  subAuto : Fin 21
  rotCount : U32
  deriving DecidableEq, Repr

/-- The sticky error bits `err` (R37). -/
structure ErrBits where
  illegal : Bool
  dt : Bool
  operand : Bool
  deriving DecidableEq, Repr

/-- The error codes of R241. -/
inductive ErrCode where
  | illegal
  | dtZero
  | operand
  deriving DecidableEq, Repr

/-- The response of an operation (R94). -/
inductive Response where
  /-- `None` -/
  | none
  /-- `Filtered(y)` -/
  | filtered (y : U32)
  /-- `Ctrl(u, dir, mag)` -/
  | ctrl (u : Rat) (dir : Dir) (mag : Nat)
  /-- `CtrlIdle` -/
  | ctrlIdle
  /-- `Gains(kp, ki, kd)` -/
  | gains (kp ki kd : Rat)
  /-- `Err(E)` -/
  | err (e : ErrCode)
  deriving DecidableEq, Repr

/-- The state of the block. -/
structure State where
  /-- The model's own (DESIGN CHOICE, log 1): the parameters of R6, which no operation changes (R272). -/
  cfg : Params
  srv : PerAxis Servo
  out : PerAxis Channel
  estop : Bool
  flt : Filter
  posFresh : Bool
  ctl : Controller
  motionComplete : Bool
  sup : Supervisor
  err : ErrBits
  /-- The model's own (DESIGN CHOICE, log 3): the command words not yet executed, first first. -/
  port : List CmdWord
  /-- The model's own (DESIGN CHOICE, log 4): the response of the last operation. -/
  resp : Response
  deriving DecidableEq, Repr

/-- The faults that stop the machine: there are none. The source has no trap (R247), and an error sets a sticky bit and
execution continues with the next operation (R242), so a step never faults. Safe: nothing is hidden behind a stop. -/
inductive Fault
  deriving DecidableEq, Repr

/-- The refusals of the model. -/
inductive Refusal where
  /-- Raised by an arm of exec whose operation has no meaning yet; no arm of this model raises it. Safe: the model stops
  where the block goes on. -/
  | notModelled (mnemonic : String)
  deriving DecidableEq, Repr

/-- What an operation answers. -/
abbrev Result := Host.Outcome State Fault Refusal

/-- The bank of axis `a` after reset (R23). -/
def Servo.reset (c : Params) (a : Axis) : Servo where
  idlePw := c.pwIdle.get a
  activePw := c.pwIdle.get a
  onPeriod := BitVec.ofNat 32 c.onTicks
  offPeriod := BitVec.ofNat 32 c.frameTicks
  elapsed := 0
  driveActive := false
  cmdDir := .idle
  cmdMag := 0

/-- The channel of axis `a` after reset (R26). -/
def Channel.reset (c : Params) (a : Axis) : Channel where
  en := true
  pw := c.pwIdle.get a

/-- Reset (R270) with the parameters `c`: every field at the value its rule gives. -/
def State.resetWith (c : Params) : State where
  cfg := c
  srv := ⟨Servo.reset c .h, Servo.reset c .v⟩
  out := ⟨Channel.reset c .h, Channel.reset c .v⟩
  estop := false
  flt := { win := ⟨0, 0, 0⟩, cursor := 0, y := 0, primed := false }
  posFresh := false
  ctl :=
    { kp := c.gainReset.p, ki := c.gainReset.i, kd := c.gainReset.d, integ := 0, prevErr := 0, enabled := false,
      setpoint := c.spReset }
  motionComplete := false
  sup := { mode := .manual, subMan := 0, subCal := 0, subAuto := 0, rotCount := 0 }
  err := { illegal := false, dt := false, operand := false }
  port := []
  resp := .none

/-- The block right after reset, with its parameters (R270, R272; log 1, 3, 4). -/
def State.reset : State := State.resetWith Config.deployed.params

end Sys2Proof.Machine
end

