-- ==== Sys2Proof/Machine/Flags.lean ====
section
/-! DEFINITION. The flags of the block and the words that pack them: the sticky error bits (`60_exceptions.md` R241), the codes of
the enumerations (`10_state.md` R22) and the STATUS view (R39). -/

namespace Sys2Proof.Machine

/-- The column "code" of R241. -/
def ErrCode.code : ErrCode → Nat
  | .illegal => 1
  | .dtZero => 2
  | .operand => 3

/-- The sticky bit of an error, set (R241); a bit already set stays set. -/
def ErrBits.raised (b : ErrBits) : ErrCode → ErrBits
  | .illegal => { b with illegal := true }
  | .dtZero => { b with dt := true }
  | .operand => { b with operand := true }

/-- Some error bit is set: the run is outside every claim of the spec (R243). -/
def ErrBits.any (b : ErrBits) : Bool := b.illegal || b.dt || b.operand

/-- The encoding of `Mode` (R22). -/
def modeCode : Mode → BitVec 2
  | .manual => 0
  | .calibration => 1
  | .automatic => 2

/-- The encoding of `Dir` (R22). -/
def dirCode : Dir → BitVec 2
  | .idle => 0
  | .forward => 1
  | .reverse => 2

/-- The STATUS view (R39). -/
def status (s : State) : BitVec 32 :=
  ((0 : BitVec 22) ++ modeCode s.sup.mode ++ BitVec.ofBool s.err.operand ++ BitVec.ofBool s.err.dt ++
    BitVec.ofBool s.err.illegal ++ BitVec.ofBool s.posFresh ++ BitVec.ofBool s.flt.primed ++ BitVec.ofBool s.estop ++
    BitVec.ofBool s.ctl.enabled ++ BitVec.ofBool s.motionComplete).cast rfl

end Sys2Proof.Machine
end

