-- ==== Sys2Proof/Machine/Operands.lean ====
section
/-! DEFINITION. The operand forms and helper functions of the rules: `clamp`, `median3`, `trunc` and the like (`00_scope.md` R11),
the binary32 gain operand (`30_encoding.md` R83), the `dt` count (R82) and the stored forms of s32, u32 and u8 values. -/

namespace Sys2Proof.Machine

/-- `clamp(x, lo, hi)` of R11. -/
def clamp {α : Type} [LinearOrder α] (x lo hi : α) : α := min (max x lo) hi

/-- `median3(a, b, c)` of R11 and R131. -/
def median3 (a b c : Nat) : Nat := max (min a b) (min (max a b) c)

/-- `trunc(q)` of R11: rounds toward zero. -/
def trunc (q : Rat) : Int := q.num.tdiv (q.den : Int)

/-- An s32 value as its 32 bits (R8). -/
def ofS32 (x : Int) : U32 := BitVec.ofInt 32 x

/-- A u32 value as its 32 bits (R8). -/
def ofU32 (n : Nat) : U32 := BitVec.ofNat 32 n

/-- A decoded gain operand (R83). -/
inductive Float32 where
  | finite (q : Rat)
  | posInf
  | negInf
  | nan
  deriving DecidableEq, Repr

/-- `(-1)^s × m × 2^(k - 150)`, the exact rational both finite cases of R83 denote. -/
def scaledValue (s : Bool) (m k : Nat) : Rat := mkRat (if s then -((m * 2 ^ k : Nat) : Int) else ((m * 2 ^ k : Nat) : Int)) (2 ^ 150)

/-- `binary32(v)` of R83, with `s = v[31]`, `e = v[30:23]`, `f = v[22:0]`. -/
def binary32 (v : U32) : Float32 :=
  let s := v.getLsbD 31
  let e := (v.extractLsb' 23 8).toNat
  let f := (v.extractLsb' 0 23).toNat
  if e = 0 then .finite (scaledValue s f 1)
  else if e = 255 then
    if f = 0 then (if s then .negInf else .posInf) else .nan
  else .finite (scaledValue s (2 ^ 23 + f) e)

/-- `gain_clamp(k, v)` of R165: `none` is the case that raises `OPERAND`. -/
def gainClamp (c : Params) (k : Gain) : Float32 → Option Rat
  | .nan => none
  | .posInf => some (c.gainMax.get k)
  | .negInf => some (c.gainMin.get k)
  | .finite q => some (clamp q (c.gainMin.get k) (c.gainMax.get k))

/-- `dt = n × DT_UNIT` (R82). -/
def dtOf (c : Params) (n : Nat) : Rat := (n : Rat) * c.dtUnit

/-- The mode an operand of `SET_MODE` names (R22); 3 to 15 name none (R82). -/
def modeOf : Nat → Option Mode
  | 0 => some .manual
  | 1 => some .calibration
  | 2 => some .automatic
  | _ => none

/-- `flt.win[i]` (R10, R28). -/
def Window.get (w : Window) (i : Fin 3) : U32 :=
  match i with
  | 0 => w.w0
  | 1 => w.w1
  | 2 => w.w2

/-- `flt.win[i] <- x` (R10, R28). -/
def Window.set (w : Window) (i : Fin 3) (x : U32) : Window :=
  match i with
  | 0 => { w with w0 := x }
  | 1 => { w with w1 := x }
  | 2 => { w with w2 := x }

end Sys2Proof.Machine
end

