-- ==== Sys2Proof/Machine/Ops.lean ====
section
/-! DEFINITION. The operations that several meanings share: taking a word from the command port, responding, raising an error
(`60_exceptions.md` R242), applying a drive command (`40_actuation.md` R101) and the enable gate (`42_controller.md` R161). -/

namespace Sys2Proof.Machine

/-- `srv[a]`. -/
def State.servo (s : State) (a : Axis) : Servo := s.srv.get a

/-- `srv[a] <- b`. -/
def State.setServo (s : State) (a : Axis) (b : Servo) : State := { s with srv := s.srv.set a b }

/-- `out[a]`. -/
def State.channel (s : State) (a : Axis) : Channel := s.out.get a

/-- `out[a] <- c`. -/
def State.setChannel (s : State) (a : Axis) (c : Channel) : State := { s with out := s.out.set a c }

/-- The next command word of the total order and the state without it (R66, log 3); `none` when no operation is pending. -/
def fetch (s : State) : Option (CmdWord × State) :=
  match s.port with
  | [] => none
  | w :: rest => some (w, { s with port := rest })

/-- `respond(r)` of R10. -/
def respond (r : Response) (s : State) : State := { s with resp := r }

/-- An operation that ends in the state `s` with the response `r`. -/
def answer (r : Response) (s : State) : Result := .next (respond r s)

/-- `raise E` of R10 and R242, the one way an error is taken: its sticky bit is set, nothing else is written, and execution
continues with the next operation. -/
def raise (e : ErrCode) (s : State) : State := { s with err := s.err.raised e, resp := .err e }

/-- The execution of an illegal word (R89): `raise ILLEGAL`, whatever made it illegal (R86). -/
def rejectWord (_why : DecodeError) (s : State) : Result := .next (raise .illegal s)

/-- `off_ticks(m)` of R102. -/
def offTicks (c : Params) (m : Nat) : Nat := (100 - m) * c.frameTicks / 100

/-- `pw_select(a, dir)` of R103. -/
def pwSelect (c : Params) (a : Axis) : Dir → U16
  | .idle => c.pwIdle.get a
  | .forward => c.pwFwd.get a
  | .reverse => c.pwRev.get a

/-- The magnitude of a drive command: `clamp(mag_in, 0, 100)` (R101). -/
def clampMag (magIn : Int) : Nat := (clamp magIn 0 100).toNat

/-- The bank that `apply_drive(a, dir, mag_in)` leaves (R101). -/
def Servo.driven (b : Servo) (c : Params) (a : Axis) (dir : Dir) (magIn : Int) : Servo :=
  { b with
    cmdMag := BitVec.ofNat 8 (clampMag magIn)
    cmdDir := dir
    onPeriod := ofU32 c.onTicks
    offPeriod := ofU32 (offTicks c (clampMag magIn))
    activePw := pwSelect c a dir }

/-- `apply_drive(a, dir, mag_in)` of R101. -/
def applyDrive (a : Axis) (dir : Dir) (magIn : Int) (s : State) : State :=
  s.setServo a ((s.servo a).driven s.cfg a dir magIn)

/-- The enabling edge of `set_control` (R161): the PID state is cleared when `PID_CLEAR_ON_ENABLE` says so. -/
def onEnable (s : State) : State :=
  if s.cfg.pidClearOnEnable then { s with ctl := { s.ctl with integ := 0, prevErr := 0 } } else s

/-- `set_control(en)` of R161, also the body of the supervisor's ENABLE, DISABLE and Manual actions. -/
def setControl (en : Bool) (s : State) : State :=
  let s1 := if en && !s.ctl.enabled then onEnable s else s
  let s2 := if !en && s.ctl.enabled then applyDrive .v .idle 0 s1 else s1
  { s2 with ctl := { s2.ctl with enabled := en } }

/-- `ctl.setpoint <- clamp(sp, SP_MIN, SP_MAX)` of R160 and R201. -/
def postSetpoint (sp : Int) (s : State) : State :=
  { s with ctl := { s.ctl with setpoint := ofS32 (clamp sp s.cfg.spMin.toInt s.cfg.spMax.toInt) } }

end Sys2Proof.Machine
end

