-- ==== Sys2Proof/Machine/Actuation.lean ====
section
/-! DEFINITION. The Actuation Layer (`40_actuation.md`): `SET_DRIVE`, `TICK` and `DISABLE_ALL`. -/

namespace Sys2Proof.Machine

/-- `SET_DRIVE axis, dir, mag` (R100). -/
def execSetDrive (a : Axis) (dir : Dir) (mag : Int) (s : State) : Result :=
  answer .none (applyDrive a dir mag s)

/-- The on phase of `tick_axis(a)` (R105). -/
def Servo.tickOn (b : Servo) : Servo :=
  if b.onPeriod.toNat ≤ b.elapsed.toNat + 1 then
    { b with elapsed := 0, driveActive := decide (b.offPeriod.toNat = 0) }
  else { b with elapsed := ofU32 (b.elapsed.toNat + 1) }

/-- The off phase of `tick_axis(a)` (R105): at magnitude 0 it holds with the counter saturated (C3). -/
def Servo.tickOff (b : Servo) : Servo :=
  if b.offPeriod.toNat ≤ b.elapsed.toNat + 1 then
    if b.cmdMag.toNat = 0 then { b with elapsed := b.offPeriod } else { b with driveActive := true, elapsed := 0 }
  else { b with elapsed := ofU32 (b.elapsed.toNat + 1) }

/-- `tick_axis(a)` on the bank of the axis (R105). -/
def Servo.ticked (b : Servo) : Servo := if b.driveActive then b.tickOn else b.tickOff

/-- The width a tick writes for a bank (R106). -/
def Servo.width (b : Servo) : U16 := if b.driveActive then b.activePw else b.idlePw

/-- The part of `TICK` that concerns one axis (R104): the phase first, then the output of the updated phase. -/
def tickAxis (a : Axis) (s : State) : State :=
  let b := (s.servo a).ticked
  (s.setServo a b).setChannel a { s.channel a with pw := b.width }

/-- What a `TICK` does to the state (R104): nothing while `estop` is set (R107). -/
def tick (s : State) : State := if s.estop then s else tickAxis .v (tickAxis .h s)

/-- `TICK` (R104). -/
def execTick (s : State) : Result := answer .none (tick s)

/-- What `DISABLE_ALL` does to the state (R108). -/
def disableAll (s : State) : State :=
  { s with estop := true, out := ⟨{ s.out.h with en := false }, { s.out.v with en := false }⟩ }

/-- `DISABLE_ALL` (R108). -/
def execDisableAll (s : State) : Result := answer .none (disableAll s)

end Sys2Proof.Machine
end

