-- ==== Sys2Proof/Machine/Controller.lean ====
section
/-! DEFINITION. The Closed-Loop Controller (`42_controller.md`): the PID datapath, `PID_STEP`, `CTRL_STEP`, `SET_SETPOINT`,
`SET_CONTROL`, the three gain writes and `GET_GAINS`. -/

namespace Sys2Proof.Machine

/-- `in_dz` of R150: the true error lies inside the deadzone (R151, strict). -/
def inDeadzone (c : Params) (e : Int) : Bool := decide (e.natAbs < c.deadzone)

/-- `e_eff` of R150: the error the proportional term and the integral increment use. -/
def effectiveError (c : Params) (e : Int) : Int := if inDeadzone c e then 0 else e

/-- The integral after a step (R152). -/
def nextIntegral (c : Params) (k : Controller) (e : Int) (dt : Rat) : Rat :=
  clamp (k.integ + (effectiveError c e : Rat) * dt) c.iMin c.iMax

/-- `D` of R150 and R153, with the true error. -/
def derivativeTerm (k : Controller) (e : Int) (dt : Rat) : Rat := k.kd * ((e - k.prevErr : Int) : Rat) / dt

/-- `u0 = P + I + D` of R150. -/
def rawOutput (c : Params) (k : Controller) (e : Int) (dt : Rat) : Rat :=
  k.kp * (effectiveError c e : Rat) + k.ki * nextIntegral c k e dt + derivativeTerm k e dt

/-- `u0 ≠ 0 and sign(u0) = GRAVITY_SIGN` (R154). -/
def gravityAssisted (c : Params) (u0 : Rat) : Bool :=
  match c.gravitySign with
  | .pos => decide (0 < u0)
  | .neg => decide (u0 < 0)

/-- `u1` of R150: gravity compensation (R154). -/
def compensated (c : Params) (u0 : Rat) : Rat := if gravityAssisted c u0 then c.gComp * u0 else u0

/-- The output `u` of a step (R150, R155). -/
def pidOutput (c : Params) (k : Controller) (e : Int) (dt : Rat) : Rat :=
  clamp (compensated c (rawOutput c k e dt)) c.uMin c.uMax

/-- The magnitude of `to_drive(u)` (R156). -/
def driveMag (u : Rat) : Nat := (trunc |u|).toNat

/-- The direction of `to_drive(u)` (R156). -/
def driveDir (c : Params) (u : Rat) : Dir :=
  if driveMag u = 0 then .idle else if 0 < u then c.dirPos.toDir else c.dirPos.opposite.toDir

/-- The state after `pid(e, dt)` (R150). -/
def pid (e : Int) (dt : Rat) (s : State) : State :=
  let u := pidOutput s.cfg s.ctl e dt
  let s1 := { s with ctl := { s.ctl with integ := nextIntegral s.cfg s.ctl e dt, prevErr := e } }
  let s2 := applyDrive .v (driveDir s.cfg u) (driveMag u) s1
  { s2 with motionComplete := inDeadzone s.cfg e || s.motionComplete }

/-- The response `Ctrl(u, dir, mag)` of a step (R158, R159). -/
def pidResponse (e : Int) (dt : Rat) (s : State) : Response :=
  let u := pidOutput s.cfg s.ctl e dt
  .ctrl u (driveDir s.cfg u) (driveMag u)

/-- `PID_STEP err_in, n` (R158). That its step inside the deadzone completes a WAIT, against the letter of R279, is the model's choice
(DESIGN CHOICE, log 21). -/
def execPidStep (errIn : Int) (n : Nat) (s : State) : Result :=
  if n = 0 then .next (raise .dtZero s)
  else if s.ctl.enabled then answer (pidResponse errIn (dtOf s.cfg n) s) (pid errIn (dtOf s.cfg n) s)
  else answer .ctrlIdle s

/-- The error a control step forms (R159): setpoint minus filtered position, exact. -/
def positionError (s : State) : Int := s.ctl.setpoint.toInt - (s.flt.y.toNat : Int)

/-- `CTRL_STEP n` (R159). That a sample from before the MOVE serves too, against the letter of R279, is the model's choice
(DESIGN CHOICE, log 21). -/
def execCtrlStep (n : Nat) (s : State) : Result :=
  if n = 0 then .next (raise .dtZero s)
  else if s.ctl.enabled && s.posFresh then
    answer (pidResponse (positionError s) (dtOf s.cfg n) s) (pid (positionError s) (dtOf s.cfg n) { s with posFresh := false })
  else answer .ctrlIdle s

/-- `SET_SETPOINT sp` (R160). -/
def execSetSetpoint (sp : Int) (s : State) : Result := answer .none (postSetpoint sp s)

/-- `SET_CONTROL en` (R161). -/
def execSetControl (en : Bool) (s : State) : Result := answer .none (setControl en s)

/-- `SET_KP g` (R162, R165). -/
def execSetKp (g : U32) (s : State) : Result :=
  match gainClamp s.cfg .p (binary32 g) with
  | none => .next (raise .operand s)
  | some q => answer .none { s with ctl := { s.ctl with kp := q } }

/-- `SET_KI g` (R163, R165). -/
def execSetKi (g : U32) (s : State) : Result :=
  match gainClamp s.cfg .i (binary32 g) with
  | none => .next (raise .operand s)
  | some q => answer .none { s with ctl := { s.ctl with ki := q } }

/-- `SET_KD g` (R164, R165). -/
def execSetKd (g : U32) (s : State) : Result :=
  match gainClamp s.cfg .d (binary32 g) with
  | none => .next (raise .operand s)
  | some q => answer .none { s with ctl := { s.ctl with kd := q } }

/-- `GET_GAINS` (R166). -/
def execGetGains (s : State) : Result := answer (.gains s.ctl.kp s.ctl.ki s.ctl.kd) s

end Sys2Proof.Machine
end

