-- ==== Sys2Proof/Machine/Sensor.lean ====
section
/-! DEFINITION. Sensor Conditioning (`41_sensor.md`): `SAMPLE`. -/

namespace Sys2Proof.Machine

/-- `lowpass(m, y)` of R133. -/
def lowpass (c : Params) (m y : Nat) : Nat := (c.alpha * m + (c.scale - c.alpha) * y) / c.scale

/-- The median of the window's three slots (R130, R131). -/
def Window.median (w : Window) : Nat := median3 (w.get 0).toNat (w.get 1).toNat (w.get 2).toNat

/-- The filter after its first sample (R130, R132). -/
def Filter.seeded (raw : U32) : Filter := { win := ⟨raw, raw, raw⟩, cursor := 1, y := raw, primed := true }

/-- The filter after a later sample (R130): the window's write, the cursor, the median and the low-pass. -/
def Filter.advanced (c : Params) (f : Filter) (raw : U32) : Filter :=
  let win := f.win.set f.cursor raw
  { f with win := win, cursor := f.cursor + 1, y := ofU32 (lowpass c win.median f.y.toNat) }

/-- The filter after one `SAMPLE` (R130). -/
def Filter.sampled (c : Params) (f : Filter) (raw : U32) : Filter := if f.primed then f.advanced c raw else Filter.seeded raw

/-- `SAMPLE raw` (R130, R134). -/
def execSample (raw : U32) (s : State) : Result :=
  let flt := s.flt.sampled s.cfg raw
  answer (.filtered flt.y) { s with flt := flt, posFresh := true }

end Sys2Proof.Machine
end

