-- ==== Sys2Proof/Machine/Supervisor.lean ====
section
/-! DEFINITION. The Operating-Mode Supervisor (`43_supervisor.md`): `SET_MODE`, `SUPERVISOR_STEP`, and the Calibration and
Automatic sub-state programs. -/

namespace Sys2Proof.Machine

/-- `reset_substates()` of R192, and the new mode (R191). -/
def enterMode (m : Mode) (s : State) : State :=
  { s with sup := { mode := m, subMan := 0, subCal := 0, subAuto := 0, rotCount := 0 } }

/-- `SET_MODE mode` (R191). -/
def execSetMode (mode : Nat) (s : State) : Result :=
  match modeOf mode with
  | none => answer .none s
  | some m => if m = s.sup.mode then answer .none s else answer .none (enterMode m s)

/-- The sub-state kinds of R195. -/
inductive SubState where
  | enable
  | disable
  | move (h : U32)
  | wait
  | rotStart (k : Fin 4)
  | rotating
  | idle
  deriving DecidableEq, Repr

/-- `CAL_PROGRAM` (R196); the last sub-state, 8, is IDLE. -/
def calProgram (c : Params) (k : Fin 9) : SubState :=
  match k.val with
  | 0 => .enable
  | 1 => .move c.calHome
  | 2 => .wait
  | 3 => .move c.calFar
  | 4 => .wait
  | 5 => .move c.calHome
  | 6 => .wait
  | 7 => .disable
  | _ => .idle

/-- `AUTO_PROGRAM` (R197); the last sub-state, 20, is IDLE. -/
def autoProgram (c : Params) (k : Fin 21) : SubState :=
  match k.val with
  | 0 => .enable
  | 1 => .move c.autoHome
  | 2 => .wait
  | 3 => .rotStart 0
  | 4 => .rotating
  | 5 => .move c.autoLatch
  | 6 => .wait
  | 7 => .rotStart 1
  | 8 => .rotating
  | 9 => .move c.autoShelf
  | 10 => .wait
  | 11 => .rotStart 2
  | 12 => .rotating
  | 13 => .move c.autoDrop
  | 14 => .wait
  | 15 => .rotStart 3
  | 16 => .rotating
  | 17 => .move c.autoHome
  | 18 => .wait
  | 19 => .disable
  | _ => .idle

/-- The counter after an advance: one more, up to the last sub-state, which never advances (R36, R204). -/
def nextSub {n : Nat} (k : Fin n) : Fin n := if h : k.val + 1 < n then ⟨k.val + 1, h⟩ else k

/-- `sub <- sub + 1` for the current mode's counter (R198); Manual has none that moves (R34). -/
def advanceSub (s : State) : State :=
  match s.sup.mode with
  | .manual => s
  | .calibration => { s with sup := { s.sup with subCal := nextSub s.sup.subCal } }
  | .automatic => { s with sup := { s.sup with subAuto := nextSub s.sup.subAuto } }

/-- `MOVE(h)` of R201. -/
def moveStep (h : U32) (s : State) : State := advanceSub { postSetpoint h.toInt s with motionComplete := false }

/-- `WAIT` of R200: it asks only whether the signal is set. R279 and the note under P5 name a `SAMPLE` followed by a `CTRL_STEP` as
the only way; that whatever sets the signal by R150 completes the WAIT is the model's choice (DESIGN CHOICE, log 21). -/
def waitStep (s : State) : State := if s.motionComplete then advanceSub s else s

/-- `ROT_START(k)` of R202. -/
def rotStartStep (k : Fin 4) (s : State) : State :=
  let s1 := applyDrive .h (s.cfg.rotDir.get k).toDir s.cfg.rotMag s
  advanceSub { s1 with sup := { s1.sup with rotCount := ofU32 (s.cfg.rotSteps.get k) } }

/-- `ROTATING` of R202. -/
def rotatingStep (s : State) : State :=
  if s.sup.rotCount.toNat ≤ 1 then
    let s1 := applyDrive .h .idle 0 s
    advanceSub { s1 with sup := { s1.sup with rotCount := 0 } }
  else { s with sup := { s.sup with rotCount := ofU32 (s.sup.rotCount.toNat - 1) } }

/-- One sub-state of a program (R198): ENABLE and DISABLE by R203, IDLE by R204. -/
def runSubState (k : SubState) (s : State) : State :=
  match k with
  | .enable => advanceSub (setControl true s)
  | .disable => advanceSub (setControl false s)
  | .move h => moveStep h s
  | .wait => waitStep s
  | .rotStart r => rotStartStep r s
  | .rotating => rotatingStep s
  | .idle => s

/-- The command of one axis in Manual mode (R194). -/
def manualAxis (a : Axis) (btn sw : Bool) (s : State) : State :=
  if btn then applyDrive a (if sw then .forward else .reverse) s.cfg.manualMag s else applyDrive a .idle 0 s

/-- `manual_step(inputs)` of R194: disable the controller, then command H, then V. -/
def manualStep (btnH btnV swH swV : Bool) (s : State) : State :=
  manualAxis .v btnV swV (manualAxis .h btnH swH (setControl false s))

/-- `SUPERVISOR_STEP btnH, btnV, swH, swV` (R193). -/
def execSupervisorStep (btnH btnV swH swV : Bool) (s : State) : Result :=
  match s.sup.mode with
  | .manual => answer .none (manualStep btnH btnV swH swV s)
  | .calibration => answer .none (runSubState (calProgram s.cfg s.sup.subCal) s)
  | .automatic => answer .none (runSubState (autoProgram s.cfg s.sup.subAuto) s)

end Sys2Proof.Machine
end

