-- ==== Sys2Proof/Machine/Dispatch.lean ====
section
/-! DEFINITION. The dispatch of an operation to its meaning, one arm per row of `opcode_table.json` (`30_encoding.md` R84). -/

namespace Sys2Proof.Machine

/-- The effect of one operation (R12). -/
def exec (i : Instr) (s : State) : Host.Outcome State Fault Refusal :=
  match i with
  | .setDrive axis dir mag => Sys2Proof.Machine.execSetDrive axis dir mag s
  | .disableAll => Sys2Proof.Machine.execDisableAll s
  | .tick => Sys2Proof.Machine.execTick s
  | .sample raw => Sys2Proof.Machine.execSample raw s
  | .pidStep errIn n => Sys2Proof.Machine.execPidStep errIn n s
  | .ctrlStep n => Sys2Proof.Machine.execCtrlStep n s
  | .setSetpoint sp => Sys2Proof.Machine.execSetSetpoint sp s
  | .setControl en => Sys2Proof.Machine.execSetControl en s
  | .setKp g => Sys2Proof.Machine.execSetKp g s
  | .setKi g => Sys2Proof.Machine.execSetKi g s
  | .setKd g => Sys2Proof.Machine.execSetKd g s
  | .getGains => Sys2Proof.Machine.execGetGains s
  | .setMode mode => Sys2Proof.Machine.execSetMode mode s
  | .supervisorStep btnH btnV swH swV => Sys2Proof.Machine.execSupervisorStep btnH btnV swH swV s

end Sys2Proof.Machine
end

