-- ==== Sys2Proof/Machine/Step.lean ====
section
/-! DEFINITION. One step of the block: it executes the next command word of the total order (`20_memory.md` R66). -/

namespace Sys2Proof.Machine

/-- One step (R65, R66): the next command word is decoded and its operation executed atomically; an illegal word raises
`ILLEGAL` (R89). With no operation pending nothing happens (DESIGN CHOICE, log 3). -/
def step (s : State) : Host.Outcome State Fault Refusal :=
  match fetch s with
  | none => .next s
  | some (w, t) =>
    match decode w with
    | .ok i => exec i t
    | .error why => rejectWord why t

/-- The state with the word whose low `nbits` bits are those of `w` at the head of the command port: the next operation of
the total order. -/
def State.withFetchWord (s : State) (nbits w : Nat) : State := { s with port := tableWord nbits w :: s.port }

end Sys2Proof.Machine
end

