-- ==== Sys2Proof/Machine/Agents.lean ====
section
/-! DEFINITION. The agents that issue operations and the orders their streams can take (`20_memory.md` R64, R66). The machine itself
does not ask who issued a word: every operation is accepted from every agent (`60_exceptions.md` R249, log 14). -/

namespace Sys2Proof.Machine

/-- The six agents (R64). -/
inductive Agent where
  | host
  | timer
  | sensorPath
  | controlTask
  | supervisorTask
  | limitSwitch
  deriving DecidableEq, Repr

/-- The column "operations it issues" of R64. -/
def Agent.operations : Agent → List Opcode
  | .host =>
    [.setDrive, .setSetpoint, .setControl, .setKp, .setKi, .setKd, .getGains, .setMode, .pidStep, .disableAll]
  | .timer => [.tick]
  | .sensorPath => [.sample]
  | .controlTask => [.ctrlStep]
  | .supervisorTask => [.supervisorStep]
  | .limitSwitch => [.disableAll]

/-- An agent issues an operation (R64). -/
def Agent.issues (a : Agent) (i : Instr) : Bool := i.opcode ∈ a.operations

/-- `total` is an order in which the words of the agents' streams can be executed (R66): each word is the next one of some
stream, so the order within one stream is kept, and nothing else is required. -/
inductive Interleaving : List (List CmdWord) → List CmdWord → Prop where
  | nil (streams : List (List CmdWord)) (h : ∀ l ∈ streams, l = []) : Interleaving streams []
  | cons (before after : List (List CmdWord)) (w : CmdWord) (rest total : List CmdWord)
      (h : Interleaving (before ++ rest :: after) total) : Interleaving (before ++ (w :: rest) :: after) (w :: total)

end Sys2Proof.Machine
end

