-- ==== Sys2Proof/Machine/Assembler.lean ====
section
/-! DEFINITION. The assembly syntax of the spec (`30_encoding.md` R90, R91) and its pseudo-operations (R92), from the text of a
line to command words. It is a way to write words down: the block itself never sees text (`00_scope.md` R4). What the rules leave
to an assembler (blanks, how many digits) is log 12. -/

namespace Sys2Proof.Asm

/-- A piece of a line. -/
abbrev Text := List Char

/-- The text is the given spelling. -/
def reads (t : Text) (s : String) : Bool := t == s.toList

/-- A blank between tokens. -/
def isBlank (c : Char) : Bool := c == ' ' || c == '\t' || c == '\r'

/-- The text without the blanks at its ends. -/
def trimmed (t : Text) : Text := ((t.dropWhile isBlank).reverse.dropWhile isBlank).reverse

/-- The pieces of a text between the separators `sep`; a text with no separator is one piece. -/
def splitAt (sep : Char) : Text → List Text
  | [] => [[]]
  | c :: rest =>
    if c == sep then [] :: splitAt sep rest
    else
      match splitAt sep rest with
      | [] => [[c]]
      | piece :: more => (c :: piece) :: more

/-- The decimal digits, each at the place of its value. -/
def decimalRow : List String := ["0123456789"]

/-- The hexadecimal digits in both cases, each at the place of its value (log 12). -/
def hexRows : List String := ["0123456789abcdef", "0123456789ABCDEF"]

/-- The value of a digit: its place in the first row that has it. -/
def digitIn (rows : List String) (c : Char) : Option Nat := rows.findSome? fun row => row.toList.idxOf? c

/-- The number that a text of digits denotes in a base. -/
def positional (base : Nat) (rows : List String) (t : Text) : Option Nat :=
  t.foldlM (fun n c => (digitIn rows c).map (n * base + ·)) 0

/-- A number of at least one decimal digit. -/
def decimal (t : Text) : Option Nat := if t.isEmpty then none else positional 10 decimalRow t

/-- `0x` and at least one hexadecimal digit. -/
def hexadecimal : Text → Option Nat
  | '0' :: 'x' :: c :: rest => positional 16 hexRows (c :: rest)
  | _ => none

/-- A natural number in decimal or in `0x` hex (R90). -/
def natural (t : Text) : Option Nat := (hexadecimal t).or (decimal t)

/-- An integer in decimal, optionally negative, or in `0x` hex (R90). -/
def integer : Text → Option Int
  | '-' :: rest => (decimal rest).map fun n => -(n : Int)
  | t => (natural t).map fun n => (n : Int)

/-- An axis (R90). -/
def axis (t : Text) : Option Axis := if reads t "H" then some .h else if reads t "V" then some .v else none

/-- A direction (R90). -/
def direction (t : Text) : Option Dir :=
  if reads t "IDLE" then some .idle else if reads t "FWD" then some .forward else if reads t "REV" then some .reverse else none

/-- A mode, by name or by number (R90). -/
def mode (t : Text) : Option Nat :=
  if reads t "MANUAL" then some 0 else if reads t "CAL" then some 1 else if reads t "AUTO" then some 2 else natural t

/-- A level or an enable: 0 or 1 (R91). -/
def level (t : Text) : Option Bool := if reads t "0" then some false else if reads t "1" then some true else none

/-- The 32-bit raw sample (R91, R82). -/
def rawSample (t : Text) : Option U32 :=
  (natural t).bind fun n => if n < 2 ^ 32 then some (BitVec.ofNat 32 n) else none

/-- The binary32 pattern with sign `s`, exponent field `e` and fraction `f` (R83). -/
def pattern32 (s : Bool) (e f : Nat) : U32 := (BitVec.ofBool s ++ BitVec.ofNat 8 e ++ BitVec.ofNat 23 f).cast rfl

/-- The pattern of `n × 2^(-149)` with sign `s`, when binary32 represents it exactly (R83, R90). -/
def patternOfScaled (s : Bool) (n : Nat) : Option U32 :=
  if n < 2 ^ 23 then some (pattern32 s 0 n)
  else
    let k := n.log2 - 23
    if n % 2 ^ k = 0 ∧ k + 1 ≤ 254 then some (pattern32 s (k + 1) (n / 2 ^ k - 2 ^ 23)) else none

/-- The pattern of `num / den` with sign `s`; none when binary32 does not represent it exactly (R90). -/
def patternOf (s : Bool) (num den : Nat) : Option U32 :=
  if num * 2 ^ 149 % den = 0 then patternOfScaled s (num * 2 ^ 149 / den) else none

/-- An unsigned decimal literal as numerator and denominator. -/
def decimalLiteral (t : Text) : Option (Nat × Nat) :=
  match splitAt '.' t with
  | [whole] => (decimal whole).map fun n => (n, 1)
  | [whole, frac] =>
    match decimal whole, decimal frac with
    | some n, some m => some (n * 10 ^ frac.length + m, 10 ^ frac.length)
    | _, _ => none
  | _ => none

/-- A gain: `+inf`, `-inf`, `nan`, `f32:0x…` or an exact decimal literal (R90). -/
def gain (t : Text) : Option U32 :=
  if reads t "+inf" then some 0x7F800000
  else if reads t "-inf" then some 0xFF800000
  else if reads t "nan" then some 0x7FC00000
  else
    match t with
    | 'f' :: '3' :: '2' :: ':' :: rest =>
      (hexadecimal rest).bind fun n => if n < 2 ^ 32 then some (BitVec.ofNat 32 n) else none
    | '-' :: rest => (decimalLiteral rest).bind fun q => patternOf true q.1 q.2
    | rest => (decimalLiteral rest).bind fun q => patternOf false q.1 q.2

/-- The mnemonic is this one, or the source's call name that R91 accepts for it. -/
def named (m : Text) (mnemonic callName : String) : Bool := reads m mnemonic || reads m callName

/-- The operations a mnemonic with two or more operands stands for (R91). -/
def withOperands (m : Text) : List Text → Option (List Instr)
  | [x, y, z] =>
    if named m "SET_DRIVE" "SetDrive" then
      match axis x, direction y, integer z with
      | some a, some d, some mag => some [.setDrive a d mag]
      | _, _, _ => none
    else none
  | [x, y] =>
    if named m "PID_STEP" "Step" then
      match integer x, natural y with
      | some e, some n => some [.pidStep e n]
      | _, _ => none
    else none
  | [w, x, y, z] =>
    if reads m "SUPERVISOR_STEP" then
      match level w, level x, level y, level z with
      | some btnH, some btnV, some swH, some swV => some [.supervisorStep btnH btnV swH swV]
      | _, _, _, _ => none
    else none
  | _ => none

/-- The operations a mnemonic with one operand stands for (R91, R92). -/
def withOperand (m x : Text) : Option (List Instr) :=
  if named m "SAMPLE" "Filter" then (rawSample x).map fun r => [.sample r]
  else if reads m "CTRL_STEP" then (natural x).map fun n => [.ctrlStep n]
  else if named m "SET_SETPOINT" "SetSetpoint" then (integer x).map fun sp => [.setSetpoint sp]
  else if named m "SET_CONTROL" "ToggleControl" then (level x).map fun en => [.setControl en]
  else if named m "SET_KP" "SetProportionalGain" then (gain x).map fun g => [.setKp g]
  else if named m "SET_KI" "SetIntegralGain" then (gain x).map fun g => [.setKi g]
  else if named m "SET_KD" "SetDerivativeGain" then (gain x).map fun g => [.setKd g]
  else if named m "SET_MODE" "TransitionMode" then (mode x).map fun n => [.setMode n]
  else if reads m "STOP" then (axis x).map fun a => [.setDrive a .idle 0]
  else if reads m "TICKS" then (natural x).bind fun k => if 1 ≤ k then some (List.replicate k .tick) else none
  else none

/-- The operations a mnemonic without operands stands for (R91, R92). -/
def withoutOperands (m : Text) : Option (List Instr) :=
  if named m "DISABLE_ALL" "DisableAll" || reads m "LIMIT_TRIP" then some [.disableAll]
  else if reads m "TICK" then some [.tick]
  else if named m "GET_GAINS" "PrintGains" then some [.getGains]
  else if reads m "ENABLE_CONTROL" then some [.setControl true]
  else if reads m "DISABLE_CONTROL" then some [.setControl false]
  else if reads m "SUPERVISOR_STEP" then some [.supervisorStep false false false false]
  else none

/-- A line without its comment (R90). -/
def uncommented (t : Text) : Text := t.takeWhile fun c => c != ';'

/-- The operations one line stands for (R90): an empty line stands for none. -/
def line (t : Text) : Option (List Instr) :=
  let code := trimmed (uncommented t)
  let m := code.takeWhile fun c => !isBlank c
  let rest := trimmed (code.dropWhile fun c => !isBlank c)
  if m.isEmpty then some []
  else if rest.isEmpty then withoutOperands m
  else
    match splitAt ',' rest with
    | [x] => withOperand m (trimmed x)
    | xs => withOperands m (xs.map trimmed)

/-- The operations of a text of lines, in order; none when a line stands for none or an operand does not fit its field. -/
def operations (lines : List Text) : Option (List Instr) :=
  match lines with
  | [] => some []
  | t :: more =>
    match line t, operations more with
    | some is, some rest => if is.all Instr.wellFormed then some (is ++ rest) else none
    | _, _ => none

/-- The command words of a program's text (R90 to R93). -/
def assemble (program : String) : Option (List CmdWord) := (operations (splitAt '\n' program.toList)).map (List.map encode)

end Sys2Proof.Asm
end

