-- ==== Sys2Proof/Machine/Relaxed.lean ====
section
/-! DEFINITION. The relaxed readings that the spec lets a model take beside the reference reading of `step`: a torn drive update
(`20_memory.md` R70, U3), a stop that takes hold one tick late (D23, C6, U9) and a command that writes the compare register
(C5, U10). `step` does not use them (log 5 to 7); `RelaxedStep` allows them all. -/

namespace Sys2Proof.Machine

/-- Which of the three fields of R70 a tick inside a command sees new; a field not seen new is seen old. -/
structure Torn where
  activePw : Bool
  offPeriod : Bool
  cmdMag : Bool
  deriving DecidableEq, Repr

/-- The bank a tick sees between the bank `old` before an `apply_drive` and the bank `new` after it (R70). No tick reads
`cmd_dir`, and `on_period` is `ON_TICKS` before and after (R25), so those two stand as in `new`. -/
def Servo.torn (p : Torn) (old new : Servo) : Servo :=
  { new with
    activePw := if p.activePw then new.activePw else old.activePw
    offPeriod := if p.offPeriod then new.offPeriod else old.offPeriod
    cmdMag := if p.cmdMag then new.cmdMag else old.cmdMag }

/-- The bank `b` with the phase and count that a tick left in `ticked`. -/
def Servo.withPhaseOf (b ticked : Servo) : Servo :=
  { b with elapsed := ticked.elapsed, driveActive := ticked.driveActive }

/-- The arguments of one `apply_drive` (R101). -/
structure DriveCommand where
  axis : Axis
  dir : Dir
  mag : Int
  deriving DecidableEq, Repr

/-- `apply_drive` of the command (R101). -/
def DriveCommand.apply (d : DriveCommand) (s : State) : State := applyDrive d.axis d.dir d.mag s

/-- The state `s` with the bank that a tick inside the `apply_drive` of `d` sees on the axis of `d`; the other axis is as it
stands in `s` (R70). -/
def DriveCommand.halfApplied (p : Torn) (d : DriveCommand) (s : State) : State :=
  s.setServo d.axis (Servo.torn p (s.servo d.axis) ((d.apply s).servo d.axis))

/-- A `TICK` inside the `apply_drive` of `d`, which has not completed (R70): the tick works on the half-applied bank, and of
that bank only the phase and the count are its own. -/
def tornTick (p : Torn) (d : DriveCommand) (s : State) : State :=
  let u := tick (d.halfApplied p s)
  u.setServo d.axis ((s.servo d.axis).withPhaseOf (u.servo d.axis))

/-- The command of `set_control(en)`: Idle to the vertical axis on a disabling edge (R161). -/
def controlCommands (en : Bool) (s : State) : List DriveCommand :=
  if !en && s.ctl.enabled then [⟨.v, .idle, 0⟩] else []

/-- The command of one run of `pid(e, dt)` (R150, R156). -/
def pidCommand (e : Int) (dt : Rat) (s : State) : DriveCommand :=
  let u := pidOutput s.cfg s.ctl e dt
  ⟨.v, driveDir s.cfg u, driveMag u⟩

/-- The command of one axis in Manual mode (R194). -/
def manualCommand (a : Axis) (btn sw : Bool) (c : Params) : DriveCommand :=
  if btn then ⟨a, if sw then .forward else .reverse, c.manualMag⟩ else ⟨a, .idle, 0⟩

/-- The commands of one sub-state (R198, R202, R203). -/
def subStateCommands (k : SubState) (s : State) : List DriveCommand :=
  match k with
  | .disable => controlCommands false s
  | .rotStart r => [⟨.h, (s.cfg.rotDir.get r).toDir, s.cfg.rotMag⟩]
  | .rotating => if s.sup.rotCount.toNat ≤ 1 then [⟨.h, .idle, 0⟩] else []
  | .enable | .move _ | .wait | .idle => []

/-- The drive commands that the operation applies in the state, in their order (R100, R150, R161, R194, R202). A Manual step
with control enabled applies two to the vertical axis: Idle, then the one of its button. -/
def driveCommands (i : Instr) (s : State) : List DriveCommand :=
  match i with
  | .setDrive a dir mag => [⟨a, dir, mag⟩]
  | .pidStep e n => if n ≠ 0 ∧ s.ctl.enabled then [pidCommand e (dtOf s.cfg n) s] else []
  | .ctrlStep n =>
    if n ≠ 0 ∧ s.ctl.enabled ∧ s.posFresh then [pidCommand (positionError s) (dtOf s.cfg n) s] else []
  | .setControl en => controlCommands en s
  | .supervisorStep btnH btnV swH swV =>
    match s.sup.mode with
    | .manual => controlCommands false s ++ [manualCommand .h btnH swH s.cfg, manualCommand .v btnV swV s.cfg]
    | .calibration => subStateCommands (calProgram s.cfg s.sup.subCal) s
    | .automatic => subStateCommands (autoProgram s.cfg s.sup.subAuto) s
  | .disableAll | .tick | .sample _ | .setSetpoint _ | .setKp _ | .setKi _ | .setKd _ | .getGains | .setMode _ => []

/-- `TornDrives ds n s u`: the commands `ds` applied in order to the banks of `s`, with `n` `TICK`s each falling inside one of
these `apply_drive`s, can leave the banks and outputs of `u` (R70). A tick inside the second command sees the first one done. -/
inductive TornDrives : List DriveCommand → Nat → State → State → Prop where
  | done (s : State) : TornDrives [] 0 s s
  | tick (p : Torn) (d : DriveCommand) (ds : List DriveCommand) (n : Nat) (s u : State)
      (h : TornDrives (d :: ds) n (tornTick p d s) u) : TornDrives (d :: ds) (n + 1) s u
  | apply (d : DriveCommand) (ds : List DriveCommand) (n : Nat) (s u : State) (h : TornDrives ds n (d.apply s) u) :
      TornDrives (d :: ds) n s u

/-- The state `t` that an operation leaves, with the banks and outputs of `u`, which a torn run of its commands leaves. -/
def State.withDrivesOf (t u : State) : State := { t with srv := u.srv, out := u.out }

/-- `DISABLE_ALL` with one further tick updating the outputs before the stop takes hold (D23). -/
def lateStop (s : State) : State := disableAll (tick s)

/-- The word decodes to the operation. -/
def decodesTo (i : Instr) (w : CmdWord) : Bool :=
  match decode w with
  | .ok j => j == i
  | .error _ => false

/-- The operation applies a drive command to the axis in the state. -/
def drives (i : Instr) (a : Axis) (s : State) : Bool := (driveCommands i s).any fun d => d.axis == a

/-- The widths a command may leave in the compare register `c` of its axis when it writes it itself: the current phase's
width (C5), or any width from the old one to the newly commanded one (U10). -/
def throughWidth (c : Channel) (new : Servo) (pw : U16) : Prop :=
  pw = new.width ∨ (min c.pw.toNat new.activePw.toNat ≤ pw.toNat ∧ pw.toNat ≤ max c.pw.toNat new.activePw.toNat)

/-- One step of the relaxed machine, from the command port of the state: the step itself, or one of the readings above. -/
inductive RelaxedStep : State → State → Prop where
  /-- The reference reading. -/
  | reference (s t : State) (h : step s = .next t) : RelaxedStep s t
  /-- The `TICK`s that follow the operation `i` in the order fall inside the drive commands it applies (R70, log 17). -/
  | torn (s t u : State) (w : CmdWord) (ticks rest : List CmdWord) (i : Instr)
      (hp : s.port = w :: (ticks ++ rest)) (hi : decode w = .ok i)
      (hn : ticks ≠ []) (ht : ∀ x ∈ ticks, decode x = .ok .tick)
      (h : exec i { s with port := rest } = .next t)
      (hd : TornDrives (driveCommands i s) ticks.length s u) :
      RelaxedStep s (t.withDrivesOf u)
  /-- The stop takes hold with the first `TICK` that follows it in the order (D23). D23 and C6 say 'one further `TICK`' and not
  whether other operations may come before that tick: here any may (DESIGN CHOICE, log 6). They run as if the stop were still to
  come, and a second `DISABLE_ALL` among them joins the first. -/
  | late (s t : State) (w wt : CmdWord) (between rest : List CmdWord)
      (hp : s.port = w :: (between ++ wt :: rest)) (hi : decodesTo .disableAll w = true) (ht : decodesTo .tick wt = true)
      (hb : ∀ x ∈ between, decodesTo .tick x = false)
      (h : Sys2Proof.core.run (between.filter fun x => !decodesTo .disableAll x).length
        { s with port := (between.filter fun x => !decodesTo .disableAll x) ++ rest } = .next t) :
      RelaxedStep s (respond .none (lateStop t))
  /-- An operation that drives the axis `a` also writes its compare register, before or after the ticks inside it (C5, U10).
  C5 and U10 do not say whether it does so while `estop` is set, when R101 and R107 leave a command without effect on the outputs: here
  it may (DESIGN CHOICE, log 7). -/
  | through (s t : State) (w : CmdWord) (rest : List CmdWord) (i : Instr) (a : Axis) (pw : U16)
      (hp : s.port = w :: rest) (hi : decode w = .ok i) (hd : drives i a s = true) (h : RelaxedStep s t)
      (hw : throughWidth (s.channel a) (t.servo a) pw ∨ throughWidth (t.channel a) (t.servo a) pw) :
      RelaxedStep s (t.setChannel a { t.channel a with pw := pw })

end Sys2Proof.Machine
end

