-- ==== Sys2Proof/Machine/Observe.lean ====
section
/-! DEFINITION. What can be read of the block: the register identifiers of `10_state.md` R38 with their packed views, and what is
seen from outside (R40). No operation reads or writes by identifier; nothing of this file changes a state. -/

namespace Sys2Proof.Machine

/-- The eight registers of a servo bank (R38, `SRV_a`). -/
inductive ServoReg where
  | idlePw
  | activePw
  | onPeriod
  | offPeriod
  | elapsed
  | driveActive
  | cmd
  | out
  deriving DecidableEq, Repr

/-- The register identifiers (R38). -/
inductive RegId where
  | status
  | substate
  | rotCount
  | setpoint
  | gain (k : Gain)
  | integ
  | prevErr
  | filtY
  | filtWin (i : Fin 3)
  | filtCursor
  | srv (a : Axis) (r : ServoReg)
  deriving DecidableEq, Repr

/-- The content of a register: 32 bits, an Int or a Q (R38). -/
inductive RegValue where
  | word (w : BitVec 32)
  | int (x : Int)
  | rat (q : Rat)
  deriving DecidableEq, Repr

/-- The offset of a register in its bank (R38). -/
def ServoReg.offset : ServoReg → Nat
  | .idlePw => 0
  | .activePw => 1
  | .onPeriod => 2
  | .offPeriod => 3
  | .elapsed => 4
  | .driveActive => 5
  | .cmd => 6
  | .out => 7

/-- The number of an axis (R22). -/
def axisNumber : Axis → Nat
  | .h => 0
  | .v => 1

/-- The column "id" of R38. -/
def RegId.number : RegId → Nat
  | .status => 0x00
  | .substate => 0x01
  | .rotCount => 0x02
  | .setpoint => 0x03
  | .gain .p => 0x04
  | .gain .i => 0x05
  | .gain .d => 0x06
  | .integ => 0x07
  | .prevErr => 0x08
  | .filtY => 0x09
  | .filtWin i => 0x0A + i.val
  | .filtCursor => 0x0D
  | .srv a r => 0x10 + 0x10 * axisNumber a + r.offset

/-- SUBSTATE (R38): bit 0 `sub_man`, bits 7:4 `sub_cal`, bits 12:8 `sub_auto`. -/
def substateView (s : State) : BitVec 32 :=
  ((0 : BitVec 19) ++ BitVec.ofNat 5 s.sup.subAuto.val ++ BitVec.ofNat 4 s.sup.subCal.val ++ (0 : BitVec 3) ++
    s.sup.subMan).cast rfl

/-- CMD of a bank (R38): bits 1:0 `cmd_dir`, bits 14:8 `cmd_mag`. R38 names no value for the other bits, 7:2 and 31:15; here they are 0
(DESIGN CHOICE, log 20). -/
def cmdView (b : Servo) : BitVec 32 :=
  ((0 : BitVec 17) ++ b.cmdMag.extractLsb' 0 7 ++ (0 : BitVec 6) ++ dirCode b.cmdDir).cast rfl

/-- OUT of an axis (R38): bit 16 `out[a].en`, bits 15:0 `out[a].pw`. R38 names no value for the other bits, 31:17; here they are 0
(DESIGN CHOICE, log 20). -/
def outView (c : Channel) : BitVec 32 := ((0 : BitVec 15) ++ BitVec.ofBool c.en ++ c.pw).cast rfl

/-- A register of the bank of axis `a` (R38). -/
def readServo (s : State) (a : Axis) : ServoReg → BitVec 32
  | .idlePw => (s.servo a).idlePw.setWidth 32
  | .activePw => (s.servo a).activePw.setWidth 32
  | .onPeriod => (s.servo a).onPeriod
  | .offPeriod => (s.servo a).offPeriod
  | .elapsed => (s.servo a).elapsed
  | .driveActive => (BitVec.ofBool (s.servo a).driveActive).setWidth 32
  | .cmd => cmdView (s.servo a)
  | .out => outView (s.channel a)

/-- A gain of the controller (R30). -/
def Controller.gain (k : Controller) : Gain → Rat
  | .p => k.kp
  | .i => k.ki
  | .d => k.kd

/-- The column "content" of R38. -/
def readReg (s : State) : RegId → RegValue
  | .status => .word (status s)
  | .substate => .word (substateView s)
  | .rotCount => .word s.sup.rotCount
  | .setpoint => .word s.ctl.setpoint
  | .gain k => .rat (s.ctl.gain k)
  | .integ => .rat s.ctl.integ
  | .prevErr => .int s.ctl.prevErr
  | .filtY => .word s.flt.y
  | .filtWin i => .word (s.flt.win.get i)
  | .filtCursor => .word (BitVec.ofNat 32 s.flt.cursor.val)
  | .srv a r => .word (readServo s a r)

/-- The pulse width a channel emits each frame: none while it is disabled (R26). -/
def Channel.emitted (c : Channel) : Option U16 := if c.en then some c.pw else none

/-- What is seen outside the block (R40): the two outputs and the response of the operation. -/
structure Seen where
  pulse : PerAxis (Option U16)
  resp : Response
  deriving DecidableEq, Repr

/-- What is seen of a state (R40). -/
def seen (s : State) : Seen := ⟨⟨s.out.h.emitted, s.out.v.emitted⟩, s.resp⟩

end Sys2Proof.Machine
end

