-- ==== Sys2Proof/Safety.lean ====
section
/-! DEFINITION. What holds of every state of a run: the invariants the spec states (`10_state.md` R24, R25, R31, `60_exceptions.md`
R243) and those that follow from its rules for the fields it adds. -/

namespace Sys2Proof.Safety

open Sys2Proof.Machine

/-- No error bit is set: R243 takes this as a premise of every claim about a run. -/
def errorFree (s : State) : Bool := !s.err.any

/-- A claim about a run, as R243 has it: that `P k s t` holds of every run of `k` steps from `s` to `t` whose three error bits are
0. The bits are never cleared, so they are 0 at every state of such a run; a run that ends with a set bit is outside. -/
def ClaimOfRun (P : Nat → State → State → Prop) : Prop :=
  ∀ (k : Nat) (s t : State), Sys2Proof.core.run k s = .next t → errorFree t = true → P k s t

/-- The invariants of one servo bank: R24, R25, the range of `cmd_mag` (R23), and what R101 and R105 make of the off period,
the active width and an on phase in progress. -/
structure BankInv (c : Params) (a : Axis) (b : Servo) : Prop where
  idle_pw : b.idlePw = c.pwIdle.get a
  on_period : b.onPeriod.toNat = c.onTicks
  cmd_mag : b.cmdMag.toNat ≤ 100
  off_period : b.offPeriod.toNat = offTicks c b.cmdMag.toNat
  active_pw : b.activePw = pwSelect c a b.cmdDir
  elapsed : b.elapsed.toNat ≤ max c.onTicks c.frameTicks
  elapsed_on : b.driveActive = true → b.elapsed.toNat < c.onTicks

/-- The width of a channel is one of the three widths of its axis (R26, R106). -/
def widthOfAxis (c : Params) (a : Axis) (pw : U16) : Prop := ∃ dir, pw = pwSelect c a dir

/-- The current sub-state of the Automatic program is a ROTATING one (R197). -/
def atRotating (u : Supervisor) : Bool :=
  decide (u.mode = .automatic) && (u.subAuto == 4 || u.subAuto == 8 || u.subAuto == 12 || u.subAuto == 16)

/-- The invariants of the controller: R31. -/
structure CtlInv (c : Params) (k : Controller) : Prop where
  integ_ge : c.iMin ≤ k.integ
  integ_le : k.integ ≤ c.iMax
  setpoint_ge : c.spMin.toInt ≤ k.setpoint.toInt
  setpoint_le : k.setpoint.toInt ≤ c.spMax.toInt
  gain_ge : ∀ g, c.gainMin.get g ≤ k.gain g
  gain_le : ∀ g, k.gain g ≤ c.gainMax.get g

/-- The invariants of the supervisor: R34 (`sub_man`), R191 and R192 (only the current mode's counter moves), R202 (the
rotation counter runs exactly in a ROTATING sub-state). -/
structure SupInv (u : Supervisor) : Prop where
  sub_man : u.subMan = 0
  sub_cal : u.mode ≠ .calibration → u.subCal = 0
  sub_auto : u.mode ≠ .automatic → u.subAuto = 0
  rot_count : 0 < u.rotCount.toNat ↔ atRotating u = true

/-- The invariants of the block, for parameters that meet R7. -/
structure Inv (s : State) : Prop where
  cfg : s.cfg.Valid
  bank : ∀ a, BankInv s.cfg a (s.servo a)
  width : ∀ a, widthOfAxis s.cfg a (s.channel a).pw
  enable : ∀ a, (s.channel a).en = !s.estop
  ctl : CtlInv s.cfg s.ctl
  sup : SupInv s.sup
  fresh : s.posFresh = true → s.flt.primed = true

end Sys2Proof.Safety
end

