-- ==== Sys2Proof/Certificates/Slice0/Obligations.lean ====
section
/-! DEFINITION. The statements for the provers: what the numbered rules of spec/ say of the block, each over every state. The
helpers of the first section write the rules' own formulas out once, apart from the meanings. Every claim
about a run takes R243's premise, that the three error bits are 0 (log 13). -/

namespace Sys2Proof.Claims

open Sys2Proof.Machine

/-- `w[hi:lo]` of R9. -/
def bits (w : CmdWord) (hi lo : Nat) : Nat := w.toNat / 2 ^ lo % 2 ^ (hi + 1 - lo)

/-- A word is legal: it matches a row of R85, and the operands that R86 (c) and (d) restrict are in range. -/
def legalFor (op : Opcode) (w : CmdWord) : Prop :=
  w &&& op.mask = op.pattern ∧ (op = .setDrive → bits w 55 52 < 2 ∧ bits w 51 48 < 3) ∧ (op = .setControl → bits w 55 52 < 2)

/-- A field that R85 marks 0 for the operation is not zero. -/
def reservedBitSet (op : Opcode) (w : CmdWord) : Prop :=
  match op with
  | .setDrive => bits w 47 32 ≠ 0
  | .disableAll | .tick | .getGains => bits w 55 0 ≠ 0
  | .sample | .setSetpoint | .setKp | .setKi | .setKd => bits w 55 32 ≠ 0
  | .pidStep => bits w 55 48 ≠ 0
  | .ctrlStep => bits w 55 48 ≠ 0 ∨ bits w 31 0 ≠ 0
  | .setControl | .setMode | .supervisorStep => bits w 51 0 ≠ 0

/-- A word is illegal: the cases (a) to (d) of R86. -/
def illegal (w : CmdWord) : Prop :=
  (∀ op : Opcode, bits w 63 56 ≠ op.byte.toNat) ∨
  ∃ op : Opcode, bits w 63 56 = op.byte.toNat ∧
    (reservedBitSet op w ∨ (op = .setDrive ∧ (2 ≤ bits w 55 52 ∨ 3 ≤ bits w 51 48)) ∨ (op = .setControl ∧ 2 ≤ bits w 55 52))

/-- The operations executed one after the other (R66); none when one of them does not answer a next state. -/
def runOps : List Instr → State → Option State
  | [], s => some s
  | i :: rest, s =>
    match exec i s with
    | .next t => runOps rest t
    | _ => none

/-- The operations, executed one after the other from `s`, end with the three error bits 0: R243's premise for such a run. The bits
are sticky, so they are 0 at every state of it. -/
def errorFreeOps (ops : List Instr) (s : State) : Bool :=
  match runOps ops s with
  | some t => Sys2Proof.Safety.errorFree t
  | none => false

/-- `clamp(m, 0, 100)` of R101 as a natural number. -/
def magOf (m : Int) : Nat := (min (max m 0) 100).toNat

/-- The bank `b'` is what `apply_drive(a, dir, m)` leaves of `b` (R101 to R103). -/
structure DriveOf (c : Params) (a : Axis) (dir : Dir) (m : Nat) (b b' : Servo) : Prop where
  cmd_mag : b'.cmdMag.toNat = m
  cmd_dir : b'.cmdDir = dir
  on_period : b'.onPeriod.toNat = c.onTicks
  off_period : b'.offPeriod.toNat = (100 - m) * c.frameTicks / 100
  active_idle : dir = .idle → b'.activePw = c.pwIdle.get a
  active_forward : dir = .forward → b'.activePw = c.pwFwd.get a
  active_reverse : dir = .reverse → b'.activePw = c.pwRev.get a
  idle_pw : b'.idlePw = b.idlePw
  elapsed : b'.elapsed = b.elapsed
  drive_active : b'.driveActive = b.driveActive

/-- The bank `b'` is what one tick leaves of `b` (R105). -/
structure TickOf (b b' : Servo) : Prop where
  on_counts : b.driveActive = true → b.elapsed.toNat + 1 < b.onPeriod.toNat →
    b'.driveActive = true ∧ b'.elapsed.toNat = b.elapsed.toNat + 1
  on_ends : b.driveActive = true → b.onPeriod.toNat ≤ b.elapsed.toNat + 1 →
    (b'.driveActive = true ↔ b.offPeriod.toNat = 0) ∧ b'.elapsed.toNat = 0
  off_counts : b.driveActive = false → b.elapsed.toNat + 1 < b.offPeriod.toNat →
    b'.driveActive = false ∧ b'.elapsed.toNat = b.elapsed.toNat + 1
  off_holds : b.driveActive = false → b.offPeriod.toNat ≤ b.elapsed.toNat + 1 → b.cmdMag.toNat = 0 →
    b'.driveActive = false ∧ b'.elapsed = b.offPeriod
  off_ends : b.driveActive = false → b.offPeriod.toNat ≤ b.elapsed.toNat + 1 → b.cmdMag.toNat ≠ 0 →
    b'.driveActive = true ∧ b'.elapsed.toNat = 0
  command : b'.cmdMag = b.cmdMag ∧ b'.cmdDir = b.cmdDir ∧ b'.onPeriod = b.onPeriod ∧ b'.offPeriod = b.offPeriod ∧
    b'.activePw = b.activePw ∧ b'.idlePw = b.idlePw

/-- `e_eff` of R150 and R151. -/
def effError (c : Params) (e : Int) : Rat := if |e| < (c.deadzone : Int) then 0 else (e : Rat)

/-- `ctl.integ` after `pid(e, dt)` (R152). -/
def integAfter (c : Params) (k : Controller) (e : Int) (dt : Rat) : Rat :=
  min (max (k.integ + effError c e * dt) c.iMin) c.iMax

/-- `D` of R153. -/
def derivative (k : Controller) (e : Int) (dt : Rat) : Rat := k.kd * ((e : Rat) - (k.prevErr : Rat)) / dt

/-- `u0` of R150. -/
def sumOutput (c : Params) (k : Controller) (e : Int) (dt : Rat) : Rat :=
  k.kp * effError c e + k.ki * integAfter c k e dt + derivative k e dt

/-- `u1` of R154. -/
def afterGravity (c : Params) (u0 : Rat) : Rat :=
  if (c.gravitySign = .pos ∧ 0 < u0) ∨ (c.gravitySign = .neg ∧ u0 < 0) then c.gComp * u0 else u0

/-- `u` of R155. -/
def output (c : Params) (k : Controller) (e : Int) (dt : Rat) : Rat :=
  min (max (afterGravity c (sumOutput c k e dt)) c.uMin) c.uMax

/-- The magnitude of `to_drive(u)` (R156). -/
def outMag (u : Rat) : Nat := ⌊|u|⌋₊

/-- The direction of `to_drive(u)` (R156). -/
def outDir (c : Params) (u : Rat) : Dir :=
  if |u| < 1 then .idle else if 0 < u then c.dirPos.toDir else c.dirPos.opposite.toDir

/-- The state `t` is what `pid(e, dt)` makes of `s` and `r` its response (R150), every field that it does not write kept. -/
def PidOf (e : Int) (dt : Rat) (s t : State) : Prop :=
  ∃ b, DriveOf s.cfg .v (outDir s.cfg (output s.cfg s.ctl e dt)) (outMag (output s.cfg s.ctl e dt)) s.srv.v b ∧
    t =
      { s with
        srv := { s.srv with v := b }
        ctl := { s.ctl with integ := integAfter s.cfg s.ctl e dt, prevErr := e }
        motionComplete := if |e| < (s.cfg.deadzone : Int) then true else s.motionComplete
        resp := .ctrl (output s.cfg s.ctl e dt) (outDir s.cfg (output s.cfg s.ctl e dt)) (outMag (output s.cfg s.ctl e dt)) }

/-- The stored gain `k` replaced by `q`. -/
def withGain (k : Gain) (q : Rat) (c : Controller) : Controller :=
  match k with
  | .p => { c with kp := q }
  | .i => { c with ki := q }
  | .d => { c with kd := q }

/-- The operation that writes gain `k` (R162 to R164). -/
def setGain : Gain → U32 → Instr
  | .p => .setKp
  | .i => .setKi
  | .d => .setKd

/-- Executing the word raises an error (R241): it is illegal, a controller step with `dt` count 0, or a gain write with a NaN. -/
def raisesError (w : CmdWord) : Prop :=
  illegal w ∨ (∃ e, decode w = .ok (.pidStep e 0)) ∨ decode w = .ok (.ctrlStep 0) ∨
    ∃ k g, decode w = .ok (setGain k g) ∧ binary32 g = .nan

/-- The value of R83's finite cases: `(-1)^s × m × 2^k`. -/
def binaryValue (v : U32) (m : Nat) (k : Int) : Rat := (if v.getLsbD 31 then -1 else 1) * (m : Rat) * (2 : Rat) ^ k

/-- The field e of R83. -/
def expField (v : U32) : Nat := v.toNat / 2 ^ 23 % 2 ^ 8

/-- The field f of R83. -/
def fracField (v : U32) : Nat := v.toNat % 2 ^ 23

/-- The sub-state the next supervisor step executes (R36); Manual has none. -/
def currentSub (s : State) : Option SubState :=
  match s.sup.mode with
  | .manual => none
  | .calibration => some (calProgram s.cfg s.sup.subCal)
  | .automatic => some (autoProgram s.cfg s.sup.subAuto)

/-- The current mode's counter (R36); 0 in Manual. -/
def counter (u : Supervisor) : Nat :=
  match u.mode with
  | .manual => 0
  | .calibration => u.subCal.val
  | .automatic => u.subAuto.val

/-- `u'` is `u` with the current mode's counter one higher (R198). -/
def Advanced (u u' : Supervisor) : Prop :=
  u'.mode = u.mode ∧ u'.subMan = u.subMan ∧ u'.rotCount = u.rotCount ∧ counter u' = counter u + 1 ∧
    (u.mode = .calibration → u'.subAuto = u.subAuto) ∧ (u.mode = .automatic → u'.subCal = u.subCal)

/-- The operation `i` runs the controller in the state `s` with a true error inside the deadzone (R157, R158, R159). That
`PID_STEP` counts, and `CTRL_STEP` on a sample from before the MOVE, is the model's choice beside R279 (DESIGN CHOICE, log 21). -/
def ControllerInDeadzone (s : State) (i : Instr) : Prop :=
  s.ctl.enabled = true ∧
    ((∃ e n, i = .pidStep e n ∧ n ≠ 0 ∧ |e| < (s.cfg.deadzone : Int)) ∨
      (∃ n, i = .ctrlStep n ∧ n ≠ 0 ∧ s.posFresh = true ∧
        |s.ctl.setpoint.toInt - (s.flt.y.toNat : Int)| < (s.cfg.deadzone : Int)))

/-- The state after `k` supervisor steps, each of them taken with the motion-complete signal set: every WAIT is satisfied
at its first step (R207). -/
def satisfiedSteps : Nat → State → State
  | 0, s => s
  | k + 1, s =>
    match exec (.supervisorStep false false false false) { s with motionComplete := true } with
    | .next t => satisfiedSteps k t
    | _ => s

/-- None of the operations, executed one after the other from `s`, commands axis `a` or is `DISABLE_ALL`. -/
def undisturbed (a : Axis) : List Instr → State → Bool
  | [], _ => true
  | i :: rest, s =>
    match exec i s with
    | .next t => i != .disableAll && !drives i a s && undisturbed a rest t
    | _ => false

/-- What each `TICK` among the operations, executed one after the other from `s`, leaves of axis `a`: the phase and the width. -/
def ticksSeen (a : Axis) : List Instr → State → List (Bool × U16)
  | [], _ => []
  | i :: rest, s =>
    match exec i s with
    | .next t => if i = .tick then ((t.servo a).driveActive, (t.channel a).pw) :: ticksSeen a rest t else ticksSeen a rest t
    | _ => []

/-- The filtered position after `k` samples `v`. -/
def positionAfter (s : State) (v : U32) (k : Nat) : Nat :=
  match runOps (List.replicate k (.sample v)) s with
  | some t => t.flt.y.toNat
  | none => 0

/-- Two states with the same parameters, stop, bank and channel of axis `a`. -/
def sameAxis (a : Axis) (s t : State) : Prop :=
  s.cfg = t.cfg ∧ s.estop = t.estop ∧ s.servo a = t.servo a ∧ s.channel a = t.channel a

/-- Two unprimed states that differ at most in the filter's window, cursor and position, which nothing has written yet. -/
def sameButFilter (s t : State) : Prop :=
  s.flt.primed = false ∧ t.flt.primed = false ∧ s.posFresh = false ∧ t = { s with flt := t.flt }

end Sys2Proof.Claims

open Sys2Proof Sys2Proof.Machine Sys2Proof.Claims Sys2Proof.Safety

/-! ### Encoding -/

/-- Decoding the word of a well-formed operation gives the operation, with every operand (R82, R85, R89). -/
def Obligations.DecodeOfEncode : Prop := ∀ i : Instr, i.wellFormed = true → decode (encode i) = .ok i

/-- A legal word is the word of the operation it decodes to, which is well formed: no bit of a word is dropped (R85, R89). -/
def Obligations.EncodeOfDecode : Prop :=
  ∀ (w : CmdWord) (i : Instr), decode w = .ok i → i.wellFormed = true ∧ encode i = w

/-- Every word is exactly one of: a legal word of one row of R85, which decodes to an operation of that row, or an illegal word
(R86), which decodes to none (R88). -/
def Obligations.WordsAreLegalOrIllegal : Prop :=
  ∀ w : CmdWord,
    (∃ op, legalFor op w ∧ (∀ op', legalFor op' w → op' = op) ∧ ¬ illegal w ∧ ∃ i, decode w = .ok i ∧ i.opcode = op) ∨
    ((∀ op, ¬ legalFor op w) ∧ illegal w ∧ ∃ why, decode w = .error why)

/-- An illegal word raises `ILLEGAL` with no other effect, and no other word does (R86). -/
def Obligations.IllegalWordsRaise : Prop :=
  ∀ (s : State) (w : CmdWord) (rest : List CmdWord), s.port = w :: rest →
    (illegal w → step s = .next { s with port := rest, err := { s.err with illegal := true }, resp := .err .illegal }) ∧
    (¬ illegal w → ∃ t, step s = .next t ∧ t.err.illegal = s.err.illegal ∧ t.resp ≠ .err .illegal)

/-- The example encodings of R93: each line assembles to its word, which decodes to its operation; the gain is 15. -/
def Obligations.ExampleWordsDecode : Prop :=
  (∀ x ∈ ([("SET_DRIVE V, FWD, 60", 0x011100000000003C, .setDrive .v .forward 60),
      ("SET_DRIVE H, REV, -5", 0x01020000FFFFFFFB, .setDrive .h .reverse (-5)),
      ("SAMPLE 500", 0x10000000000001F4, .sample 500),
      ("PID_STEP 30, 1", 0x200000010000001E, .pidStep 30 1),
      ("PID_STEP -7, 2", 0x20000002FFFFFFF9, .pidStep (-7) 2),
      ("CTRL_STEP 1", 0x2100000100000000, .ctrlStep 1),
      ("SET_SETPOINT 100", 0x2200000000000064, .setSetpoint 100),
      ("SET_CONTROL 1", 0x2310000000000000, .setControl true),
      ("SET_KP 15.0", 0x2400000041700000, .setKp 0x41700000),
      ("SET_MODE CAL", 0x3010000000000000, .setMode 1),
      ("SUPERVISOR_STEP 0, 1, 0, 1", 0x31A0000000000000, .supervisorStep false true false true),
      ("TICK", 0x0300000000000000, .tick)] : List (String × CmdWord × Instr)),
    Asm.assemble x.1 = some [x.2.1] ∧ decode x.2.1 = .ok x.2.2) ∧
  binary32 0x41700000 = .finite 15

/-- `binary32(v)` for every 32-bit pattern, exactly (R83). -/
def Obligations.Binary32Exact : Prop :=
  ∀ v : U32,
    (expField v = 0 → binary32 v = .finite (binaryValue v (fracField v) (-149))) ∧
    (1 ≤ expField v → expField v ≤ 254 →
      binary32 v = .finite (binaryValue v (2 ^ 23 + fracField v) ((expField v : Int) - 150))) ∧
    (expField v = 255 → fracField v = 0 → binary32 v = if v.getLsbD 31 then .negInf else .posInf) ∧
    (expField v = 255 → fracField v ≠ 0 → binary32 v = .nan) ∧
    (expField v = 0 → fracField v = 0 → binary32 v = .finite 0)

/-- A decimal gain literal assembles to a pattern whose value is the literal, and is refused only when no binary32 pattern
has that value (R90). -/
def Obligations.GainLiteralsExact : Prop :=
  ∀ (neg : Bool) (num den : Nat), den ≠ 0 →
    (∀ g, Asm.patternOf neg num den = some g → binary32 g = .finite ((if neg then -1 else 1) * ((num : Rat) / (den : Rat)))) ∧
    (Asm.patternOf neg num den = none → ∀ g, binary32 g ≠ .finite ((if neg then -1 else 1) * ((num : Rat) / (den : Rat))))

/-! ### The step -/

/-- A step runs the decoded operation on the state without its word (R65, R66): for the word of a well-formed operation, and for
whatever word decodes. -/
def Obligations.StepRunsDecoded : Prop :=
  (∀ (s : State) (w : CmdWord) (rest : List CmdWord) (i : Instr), s.port = w :: rest → decode w = .ok i →
    step s = exec i { s with port := rest }) ∧
  (∀ (s : State) (i : Instr), i.wellFormed = true →
    step (s.withFetchWord 64 (encode i).toNat) = exec i s)

/-- No step stops the block: every step answers a next state, from every state (R242, R247). -/
def Obligations.EveryStepGoesOn : Prop := ∀ s : State, ∃ t, step s = .next t

/-- A step executes at most one word, the first, and leaves the others as they were (R66). With no word pending it changes
nothing, which is the model's choice (log 3). -/
def Obligations.OneWordPerStep : Prop :=
  (∀ s t : State, step s = .next t → t.port = s.port.tail) ∧ (∀ s : State, s.port = [] → step s = .next s)

/-- No step changes the parameters, so they do not change during a run (R272, R243). -/
def Obligations.ParametersFixed : Prop :=
  (∀ s t : State, step s = .next t → t.cfg = s.cfg) ∧ ClaimOfRun fun _ s t => t.cfg = s.cfg

/-- Whatever the interleaving, each agent's stream is executed in its own order, and every word is executed once (R66). -/
def Obligations.InterleavingKeepsStreams : Prop :=
  ∀ (streams : List (List CmdWord)) (total : List CmdWord), Interleaving streams total →
    (∀ l ∈ streams, l.Sublist total) ∧ total.Perm streams.flatten

/-! ### Reset and invariants -/

/-- The state after reset (R271), with the reset value of every other field of the spec (R23, R28, R30, R35). -/
def Obligations.ResetState : Prop :=
  State.reset.sup = { mode := .manual, subMan := 0, subCal := 0, subAuto := 0, rotCount := 0 } ∧
  (∀ btnH btnV swH swV, exec (.supervisorStep btnH btnV swH swV) State.reset =
    .next (respond .none (manualStep btnH btnV swH swV State.reset))) ∧
  State.reset.ctl.enabled = false ∧ State.reset.ctl.integ = 0 ∧ State.reset.ctl.prevErr = 0 ∧
  (∀ k, State.reset.ctl.gain k = State.reset.cfg.gainReset.get k) ∧ State.reset.ctl.setpoint = State.reset.cfg.spReset ∧
  (∀ a, (State.reset.servo a).cmdDir = .idle ∧ (State.reset.servo a).cmdMag = 0 ∧
    (State.reset.servo a).idlePw = State.reset.cfg.pwIdle.get a ∧ (State.reset.servo a).activePw = State.reset.cfg.pwIdle.get a ∧
    (State.reset.servo a).onPeriod = BitVec.ofNat 32 State.reset.cfg.onTicks ∧
    (State.reset.servo a).offPeriod = BitVec.ofNat 32 State.reset.cfg.frameTicks ∧
    (State.reset.servo a).elapsed = 0 ∧ (State.reset.servo a).driveActive = false ∧
    State.reset.channel a = ⟨true, State.reset.cfg.pwIdle.get a⟩ ∧
    (State.reset.channel a).emitted = some (State.reset.cfg.pwIdle.get a)) ∧
  State.reset.flt = { win := ⟨0, 0, 0⟩, cursor := 0, y := 0, primed := false } ∧
  State.reset.motionComplete = false ∧ State.reset.posFresh = false ∧ State.reset.estop = false ∧
  State.reset.err = ⟨false, false, false⟩ ∧ status State.reset = 0

/-- The invariants hold after reset, for every set of parameters that meets R7, and so for the block at hand. -/
def Obligations.ResetMeetsInv : Prop := (∀ c : Params, c.Valid → Inv (State.resetWith c)) ∧ Inv State.reset

/-- Every step keeps the invariants (R24, R25, R31, R34). -/
def Obligations.StepKeepsInv : Prop := ∀ s t : State, Inv s → step s = .next t → Inv t

/-- The invariants give what R25 and R31 say: the periods, the frame exactly at magnitude 0, the three widths, the bound on the
phase counter, the anti-windup band, the setpoint range and the gain ranges. -/
def Obligations.InvGivesStatedRanges : Prop :=
  ∀ s : State, Inv s →
    (∀ a, (s.servo a).onPeriod.toNat = s.cfg.onTicks ∧ (s.servo a).offPeriod.toNat ≤ s.cfg.frameTicks ∧
      ((s.servo a).offPeriod.toNat = s.cfg.frameTicks ↔ (s.servo a).cmdMag.toNat = 0) ∧
      ((s.servo a).activePw = s.cfg.pwIdle.get a ∨ (s.servo a).activePw = s.cfg.pwFwd.get a ∨
        (s.servo a).activePw = s.cfg.pwRev.get a) ∧
      (s.servo a).elapsed.toNat ≤ max s.cfg.onTicks s.cfg.frameTicks) ∧
    (s.cfg.iMin ≤ s.ctl.integ ∧ s.ctl.integ ≤ s.cfg.iMax) ∧
    (s.cfg.spMin.toInt ≤ s.ctl.setpoint.toInt ∧ s.ctl.setpoint.toInt ≤ s.cfg.spMax.toInt) ∧
    (∀ k, s.cfg.gainMin.get k ≤ s.ctl.gain k ∧ s.ctl.gain k ≤ s.cfg.gainMax.get k)

/-- `idle_pw` is `PW_IDLE[a]` after reset and no operation writes it (R24). -/
def Obligations.IdleWidthConstant : Prop :=
  (∀ a, (State.reset.servo a).idlePw = State.reset.cfg.pwIdle.get a) ∧
  (∀ (s t : State) (a : Axis), step s = .next t → (t.servo a).idlePw = (s.servo a).idlePw)

/-- The error bits of a run (R37, R243). A bit, once set, stays set: only reset clears it. A run ends with the three bits 0
exactly when it starts so and executes no illegal word, no zero `dt` and no NaN gain; every other run is outside every claim. The
claim made here of a run that is not outside: it is the operations of its words, executed one after the other. -/
def Obligations.ErrorBitsSticky : Prop :=
  (∀ (k : Nat) (s t : State), Sys2Proof.core.run k s = .next t →
    (s.err.illegal = true → t.err.illegal = true) ∧ (s.err.dt = true → t.err.dt = true) ∧
    (s.err.operand = true → t.err.operand = true)) ∧
  (∀ (k : Nat) (s t : State), Sys2Proof.core.run k s = .next t →
    (errorFree t = true ↔ errorFree s = true ∧ ∀ w ∈ s.port.take k, ¬ raisesError w)) ∧
  ClaimOfRun fun k s t =>
    ∃ ops : List Instr, (s.port.take k).map decode = ops.map .ok ∧ runOps ops { s with port := s.port.drop k } = some t

/-- After `DISABLE_ALL` no pulse leaves the block, whatever words follow, and the outputs stay as they were (R281, R107): it
stops both channels, no step gives a stopped block another output, and so no run does (R243). -/
def Obligations.NoPulseAfterStop : Prop :=
  (∀ s s' : State, exec .disableAll s = .next s' → s'.estop = true ∧ ∀ a, (s'.channel a).emitted = none) ∧
  (∀ s t : State, s.estop = true → (∀ a, (s.channel a).emitted = none) → step s = .next t → t.estop = true ∧ t.out = s.out) ∧
  ClaimOfRun fun _ s' t =>
    ∀ s : State, exec .disableAll s = .next s' → t.estop = true ∧ t.out = s'.out ∧ ∀ a, (t.channel a).emitted = none

/-- The STATUS view, bit by bit, and its value after reset (R39). -/
def Obligations.StatusBits : Prop :=
  (∀ s : State,
    (status s).getLsbD 0 = s.motionComplete ∧ (status s).getLsbD 1 = s.ctl.enabled ∧ (status s).getLsbD 2 = s.estop ∧
    (status s).getLsbD 3 = s.flt.primed ∧ (status s).getLsbD 4 = s.posFresh ∧ (status s).getLsbD 5 = s.err.illegal ∧
    (status s).getLsbD 6 = s.err.dt ∧ (status s).getLsbD 7 = s.err.operand ∧
    (status s).toNat / 2 ^ 8 =
      (match s.sup.mode with
      | .manual => 0
      | .calibration => 1
      | .automatic => 2)) ∧
  status State.reset = 0

/-! ### Actuation Layer -/

/-- `SET_DRIVE` completes in every state and applies its command to one bank, at any value of the magnitude, `estop` set or
not; nothing else changes (R101, R103). -/
def Obligations.SetDriveResult : Prop :=
  ∀ (a : Axis) (dir : Dir) (m : Int) (s : State), s.cfg.Valid →
    ∃ b, DriveOf s.cfg a dir (magOf m) (s.servo a) b ∧
      exec (.setDrive a dir m) s = .next { s with srv := s.srv.set a b, resp := .none }

/-- `off_ticks(m)` is the floor of `(100 - m) × FRAME_TICKS / 100`, `FRAME_TICKS` at 0, 0 at 100, and non-increasing (R102). -/
def Obligations.OffTicksFloor : Prop :=
  ∀ c : Params, (∀ m, m ≤ 100 → (offTicks c m : Int) = ⌊((100 - (m : Rat)) * (c.frameTicks : Rat)) / 100⌋) ∧
    offTicks c 0 = c.frameTicks ∧ offTicks c 100 = 0 ∧
    (∀ m m', m ≤ m' → m' ≤ 100 → offTicks c m' ≤ offTicks c m)

/-- `TICK` without `estop`: each bank advances by R105, each output follows the updated phase (R106), nothing else changes. -/
def Obligations.TickResult : Prop :=
  ∀ s : State, s.estop = false →
    ∃ bh bv, TickOf s.srv.h bh ∧ TickOf s.srv.v bv ∧
      exec .tick s =
        .next
          { s with
            srv := ⟨bh, bv⟩
            out :=
              ⟨⟨s.out.h.en, if bh.driveActive then bh.activePw else bh.idlePw⟩,
                ⟨s.out.v.en, if bv.driveActive then bv.activePw else bv.idlePw⟩⟩
            resp := .none }

/-- While `estop` is set a `TICK` changes no state: phases, counters and outputs are frozen (R107); both channels are disabled in
every state that meets the invariants. -/
def Obligations.TickFrozen : Prop :=
  ∀ s : State, s.estop = true →
    exec .tick s = .next { s with resp := .none } ∧ (Inv s → ∀ a, (s.channel a).en = false)

/-- `DISABLE_ALL` completes in every state: it sets `estop` and clears both enables, and changes nothing else (R108). -/
def Obligations.DisableAllResult : Prop :=
  ∀ s : State, exec .disableAll s =
    .next { s with estop := true, out := ⟨⟨false, s.out.h.pw⟩, ⟨false, s.out.v.pw⟩⟩, resp := .none }

/-- Only `TICK` writes the compare registers and only `DISABLE_ALL` the enables, so a drive command has no effect on the outputs
until the next tick (R109, R251). -/
def Obligations.OutputsWrittenByTickOnly : Prop :=
  ∀ (i : Instr) (s t : State), exec i s = .next t →
    (i ≠ .tick → ∀ a, (t.channel a).pw = (s.channel a).pw) ∧ (i ≠ .disableAll → ∀ a, (t.channel a).en = (s.channel a).en)

/-- The two axes are independent: what an operation of the family makes of one axis depends on that axis alone, and a
`SET_DRIVE` leaves the other axis as it was (R112). -/
def Obligations.AxesIndependent : Prop :=
  (∀ (a : Axis) (i : Instr) (s s' t t' : State), (i = .tick ∨ i = .disableAll ∨ ∃ b dir m, i = .setDrive b dir m) →
    sameAxis a s s' → exec i s = .next t → exec i s' = .next t' → sameAxis a t t') ∧
  (∀ (a b : Axis) (dir : Dir) (m : Int) (s t : State), b ≠ a → exec (.setDrive b dir m) s = .next t → sameAxis a s t)

/-- Duty cycle (R110): after an `apply_drive` of magnitude 1 to 100 on axis `a`, whoever issues it, and with any operations
but a later command for the axis (or a stop, after which ticks change nothing, R107), every run of `ON_TICKS + off_ticks(m)`
consecutive ticks has exactly `ON_TICKS` ticks whose phase is on; at magnitude 0 no phase is on once the on phase in progress
has ended, which takes at most `ON_TICKS` ticks; with direction Idle the width is `PW_IDLE[a]` in both phases. The run is
error-free (R243). -/
def Obligations.DutyCycle : Prop :=
  ∀ (s : State) (a : Axis) (dir : Dir) (m : Int) (ops : List Instr), Inv s → s.estop = false →
    undisturbed a ops (applyDrive a dir m s) = true → errorFreeOps ops (applyDrive a dir m s) = true →
    (1 ≤ m → m ≤ 100 → ∀ first period : Nat, (period : Int) = s.cfg.onTicks + (100 - m) * s.cfg.frameTicks / 100 →
      first + period ≤ (ticksSeen a ops (applyDrive a dir m s)).length →
      (((ticksSeen a ops (applyDrive a dir m s)).drop first).take period).countP (fun x => x.1) = s.cfg.onTicks) ∧
    (m = 0 → ∀ x ∈ (ticksSeen a ops (applyDrive a dir m s)).drop (s.cfg.onTicks - 1), x.1 = false) ∧
    (dir = .idle → ∀ x ∈ ticksSeen a ops (applyDrive a dir m s), x.2 = s.cfg.pwIdle.get a)

/-- Magnitude 0 is Idle at the outputs (R111): after the command and the end of an on phase in progress, the width is
`PW_IDLE[a]` at every tick. An on phase at count `e` ends with tick `ON_TICKS - e`; with none in progress the first tick counts. -/
def Obligations.MagnitudeZeroIsIdle : Prop :=
  ∀ (s : State) (a : Axis) (dir : Dir) (k : Nat), Inv s → errorFree s = true → s.estop = false →
    (if (s.servo a).driveActive then s.cfg.onTicks ≤ (s.servo a).elapsed.toNat + k else 1 ≤ k) →
    ∃ t, runOps (.setDrive a dir 0 :: List.replicate k .tick) s = some t ∧
      (t.servo a).driveActive = false ∧ (t.channel a).pw = s.cfg.pwIdle.get a

/-! ### Sensor Conditioning -/

/-- The first `SAMPLE` seeds the window and the smoother and responds with the sample itself (R130, R132). -/
def Obligations.FirstSampleSeeds : Prop :=
  ∀ (raw : U32) (s : State), s.flt.primed = false →
    exec (.sample raw) s =
      .next
        { s with
          flt := { win := ⟨raw, raw, raw⟩, cursor := 1, y := raw, primed := true }
          posFresh := true
          resp := .filtered raw }

/-- A later `SAMPLE` writes the slot of the cursor, moves the cursor, and responds with the low-pass of the median, for
parameters that meet R7; nothing else changes (R130). -/
def Obligations.LaterSampleFilters : Prop :=
  ∀ (raw : U32) (s : State), s.cfg.Valid → s.flt.primed = true →
    ∃ f, exec (.sample raw) s = .next { s with flt := f, posFresh := true, resp := .filtered f.y } ∧
      f.primed = true ∧ f.cursor.val = (s.flt.cursor.val + 1) % 3 ∧
      (∀ j, f.win.get j = if j = s.flt.cursor then raw else s.flt.win.get j) ∧
      f.y.toNat =
        (s.cfg.alpha * median3 (f.win.get 0).toNat (f.win.get 1).toNat (f.win.get 2).toNat +
          (s.cfg.scale - s.cfg.alpha) * s.flt.y.toNat) / s.cfg.scale

/-- `median3` is the formula of R131 and returns the middle value: of three values in order the second, whatever order they are
given in. -/
def Obligations.MedianIsMiddle : Prop :=
  (∀ a b c : Nat, median3 a b c = max (min a b) (min (max a b) c)) ∧
  (∀ a b c : Nat, a ≤ b → b ≤ c →
    median3 a b c = b ∧ median3 a c b = b ∧ median3 b a c = b ∧ median3 b c a = b ∧ median3 c a b = b ∧ median3 c b a = b)

/-- The low-pass rounds the exact quotient down, lies between its inputs and so fits in 32 bits, and passes the median through
when `ALPHA = SCALE` (R133). -/
def Obligations.LowpassExact : Prop :=
  ∀ (c : Params) (m y : Nat), c.Valid →
    (lowpass c m y : Int) = ⌊((c.alpha : Rat) * m + ((c.scale : Rat) - c.alpha) * y) / c.scale⌋ ∧
    min m y ≤ lowpass c m y ∧ lowpass c m y ≤ max m y ∧
    (m < 2 ^ 32 → y < 2 ^ 32 → lowpass c m y < 2 ^ 32) ∧ (c.alpha = c.scale → lowpass c m y = m)

/-- Spike rejection (R136, read as log 18 says): with the position and the two slots that the next sample does not overwrite
at `v`, that sample, of any value, responds `Filtered(v)`; two consecutive equal spikes are not rejected, since the median of
`v, x, x` is `x`. -/
def Obligations.SpikeRejected : Prop :=
  (∀ (s : State) (v x : U32), s.cfg.Valid → s.flt.primed = true → (∀ j, j ≠ s.flt.cursor → s.flt.win.get j = v) →
    s.flt.y = v → ∃ t, exec (.sample x) s = .next t ∧ t.resp = .filtered v ∧ t.flt.y = v) ∧
  (∀ v x : Nat, median3 v x x = x ∧ median3 x v x = x ∧ median3 x x v = x)

/-- Constant input (R137): from the second equal sample on the median is `v` and the position moves monotonically toward `v`, never
past it; from above it reaches `v`; from below it stops at the first `y` with `ALPHA × (v - y) < SCALE`, which is within
`ceil(SCALE / ALPHA) - 1` of `v`. -/
def Obligations.ConstantInputConverges : Prop :=
  ∀ (s : State) (v : U32), s.cfg.Valid → errorFree s = true →
    (∀ k, 2 ≤ k → ∃ t, runOps (List.replicate k (.sample v)) s = some t ∧
      median3 (t.flt.win.get 0).toNat (t.flt.win.get 1).toNat (t.flt.win.get 2).toNat = v.toNat) ∧
    (∀ k, 1 ≤ k → v.toNat ≤ positionAfter s v k →
      v.toNat ≤ positionAfter s v (k + 1) ∧ positionAfter s v (k + 1) ≤ positionAfter s v k) ∧
    (v.toNat ≤ positionAfter s v 1 → ∃ n, ∀ k, n ≤ k → positionAfter s v k = v.toNat) ∧
    (∀ k, 1 ≤ k → positionAfter s v k ≤ v.toNat →
      positionAfter s v k ≤ positionAfter s v (k + 1) ∧ positionAfter s v (k + 1) ≤ v.toNat ∧
      (positionAfter s v (k + 1) = positionAfter s v k ↔ s.cfg.alpha * (v.toNat - positionAfter s v k) < s.cfg.scale)) ∧
    (positionAfter s v 1 ≤ v.toNat → ∃ n y, (∀ k, n ≤ k → positionAfter s v k = y) ∧ y ≤ v.toNat ∧
      s.cfg.alpha * (v.toNat - y) < s.cfg.scale ∧ (v.toNat : Int) - y ≤ ⌈(s.cfg.scale : Rat) / s.cfg.alpha⌉ - 1)

/-- What the filter holds before its first sample is never read (R28, R41): two unprimed states that differ only there answer
every step alike, up to the same difference. -/
def Obligations.UnprimedFilterUnread : Prop :=
  ∀ s s' t t' : State, sameButFilter s s' → step s = .next t → step s' = .next t' →
    t' = t ∨ sameButFilter t t'

/-! ### Closed-Loop Controller -/

/-- `PID_STEP` with a non-zero count and control enabled runs the datapath of R150 on its error. -/
def Obligations.PidStepResult : Prop :=
  ∀ (e : Int) (n : Nat) (s : State), s.cfg.Valid → n ≠ 0 → s.ctl.enabled = true →
    ∃ t, PidOf e ((n : Rat) * s.cfg.dtUnit) s t ∧ exec (.pidStep e n) s = .next t

/-- `CTRL_STEP` with a non-zero count, control enabled and a fresh sample runs the datapath on setpoint minus position, and
uses the sample up (R159). -/
def Obligations.CtrlStepResult : Prop :=
  ∀ (n : Nat) (s : State), s.cfg.Valid → n ≠ 0 → s.ctl.enabled = true → s.posFresh = true →
    ∃ t, PidOf (s.ctl.setpoint.toInt - (s.flt.y.toNat : Int)) ((n : Rat) * s.cfg.dtUnit) { s with posFresh := false } t ∧
      exec (.ctrlStep n) s = .next t

/-- Without control, or for `CTRL_STEP` without a fresh sample, the controller does not run and no state changes (R158, R159). -/
def Obligations.ControllerIdle : Prop :=
  ∀ (e : Int) (n : Nat) (s : State), n ≠ 0 →
    (s.ctl.enabled = false → exec (.pidStep e n) s = .next { s with resp := .ctrlIdle }) ∧
    ((s.ctl.enabled = false ∨ s.posFresh = false) → exec (.ctrlStep n) s = .next { s with resp := .ctrlIdle })

/-- A `dt` count of 0 raises `DT_ZERO` with no other effect, control enabled or not (R158, R159, R241, R242). -/
def Obligations.ZeroCountRaises : Prop :=
  ∀ (e : Int) (s : State),
    exec (.pidStep e 0) s = .next { s with err := { s.err with dt := true }, resp := .err .dtZero } ∧
    exec (.ctrlStep 0) s = .next { s with err := { s.err with dt := true }, resp := .err .dtZero }

/-- `pid` is a function of the error, the time step, the parameters and the five fields it reads: two states that agree on them
give the same response, the same command and the same controller writes (R167). -/
def Obligations.PidDeterministic : Prop :=
  ∀ (e : Int) (n : Nat) (s s' t t' : State), s.cfg = s'.cfg → s.ctl.kp = s'.ctl.kp → s.ctl.ki = s'.ctl.ki →
    s.ctl.kd = s'.ctl.kd → s.ctl.integ = s'.ctl.integ → s.ctl.prevErr = s'.ctl.prevErr →
    s.ctl.enabled = true → s'.ctl.enabled = true →
    exec (.pidStep e n) s = .next t → exec (.pidStep e n) s' = .next t' →
    t.resp = t'.resp ∧
      (n ≠ 0 → t.ctl.integ = t'.ctl.integ ∧ t.ctl.prevErr = t'.ctl.prevErr ∧ (t.servo .v).cmdMag = (t'.servo .v).cmdMag ∧
        (t.servo .v).cmdDir = (t'.servo .v).cmdDir ∧ (t.servo .v).offPeriod = (t'.servo .v).offPeriod ∧
        (t.servo .v).onPeriod = (t'.servo .v).onPeriod ∧ (t.servo .v).activePw = (t'.servo .v).activePw ∧
        (s.motionComplete = s'.motionComplete → t.motionComplete = t'.motionComplete))

/-- Anti-windup (R168): after every sequence of controller steps the integral lies in its band, and the integral term within
`|Ki| × max(|I_MIN|, |I_MAX|)`. -/
def Obligations.AntiWindupBound : Prop :=
  ∀ (steps : List (Int × Nat)) (s t : State), s.cfg.Valid → s.cfg.iMin ≤ s.ctl.integ → s.ctl.integ ≤ s.cfg.iMax →
    runOps (steps.map fun x => .pidStep x.1 x.2) s = some t → errorFree t = true →
    s.cfg.iMin ≤ t.ctl.integ ∧ t.ctl.integ ≤ s.cfg.iMax ∧
      |t.ctl.ki * t.ctl.integ| ≤ |t.ctl.ki| * max |s.cfg.iMin| |s.cfg.iMax|

/-- Deadzone (R169): a step with `abs(e) < DEADZONE` has no proportional part, leaves the integral unchanged, and its
derivative uses the true error; it sets the motion-complete signal (R157). -/
def Obligations.DeadzoneStep : Prop :=
  ∀ (e : Int) (n : Nat) (s : State), Inv s → n ≠ 0 → s.ctl.enabled = true → |e| < (s.cfg.deadzone : Int) →
    ∃ t mag dir, exec (.pidStep e n) s = .next t ∧ t.ctl.integ = s.ctl.integ ∧ t.motionComplete = true ∧
      t.resp =
        .ctrl
          (min
            (max
              (afterGravity s.cfg
                (s.ctl.ki * s.ctl.integ + s.ctl.kd * ((e : Rat) - (s.ctl.prevErr : Rat)) / ((n : Rat) * s.cfg.dtUnit)))
              s.cfg.uMin)
            s.cfg.uMax)
          dir mag

/-- The motion-complete signal is 0 after reset, set only by a controller step inside the deadzone, and cleared only by a MOVE
(R32). -/
def Obligations.MotionCompleteWrites : Prop :=
  State.reset.motionComplete = false ∧
  ∀ (i : Instr) (s t : State), exec i s = .next t →
    (s.motionComplete = false → t.motionComplete = true → ControllerInDeadzone s i) ∧
    (s.motionComplete = true → t.motionComplete = false →
      (∃ btnH btnV swH swV, i = .supervisorStep btnH btnV swH swV) ∧ ∃ h, currentSub s = some (.move h))

/-- `SET_SETPOINT` completes in every state and stores the value clamped to `[SP_MIN, SP_MAX]`; nothing else changes (R160). -/
def Obligations.SetSetpointResult : Prop :=
  ∀ (sp : Int) (s : State), s.cfg.Valid →
    ∃ x : U32, exec (.setSetpoint sp) s = .next { s with ctl := { s.ctl with setpoint := x }, resp := .none } ∧
      x.toInt = min (max sp s.cfg.spMin.toInt) s.cfg.spMax.toInt

/-- `SET_CONTROL` completes in every state: a repeated value changes nothing, an enabling edge clears the PID state exactly
when `PID_CLEAR_ON_ENABLE` is set, a disabling edge commands the vertical axis Idle (R161). -/
def Obligations.SetControlResult : Prop :=
  ∀ s : State,
    exec (.setControl s.ctl.enabled) s = .next { s with resp := .none } ∧
    (s.ctl.enabled = false →
      exec (.setControl true) s =
        .next
          { s with
            ctl :=
              { s.ctl with
                enabled := true
                integ := if s.cfg.pidClearOnEnable then 0 else s.ctl.integ
                prevErr := if s.cfg.pidClearOnEnable then 0 else s.ctl.prevErr }
            resp := .none }) ∧
    (s.ctl.enabled = true → s.cfg.Valid →
      ∃ b, DriveOf s.cfg .v .idle 0 s.srv.v b ∧
        exec (.setControl false) s =
          .next { s with srv := { s.srv with v := b }, ctl := { s.ctl with enabled := false }, resp := .none })

/-- A gain write with an operand that is not NaN completes in every state and stores the clamped value: the bounds for the
infinities, the exact value clamped otherwise. A NaN raises `OPERAND` and changes nothing else (R165). -/
def Obligations.GainWriteResult : Prop :=
  ∀ (k : Gain) (g : U32) (s : State),
    (binary32 g = .nan → exec (setGain k g) s = .next { s with err := { s.err with operand := true }, resp := .err .operand }) ∧
    (binary32 g = .posInf → exec (setGain k g) s = .next { s with ctl := withGain k (s.cfg.gainMax.get k) s.ctl, resp := .none }) ∧
    (binary32 g = .negInf → exec (setGain k g) s = .next { s with ctl := withGain k (s.cfg.gainMin.get k) s.ctl, resp := .none }) ∧
    (∀ q, binary32 g = .finite q →
      exec (setGain k g) s =
        .next
          { s with ctl := withGain k (min (max q (s.cfg.gainMin.get k)) (s.cfg.gainMax.get k)) s.ctl, resp := .none })

/-- `GET_GAINS` completes in every state, responds the exact stored gains and changes nothing (R166). -/
def Obligations.GetGainsResult : Prop :=
  ∀ s : State, exec .getGains s = .next { s with resp := .gains s.ctl.kp s.ctl.ki s.ctl.kd }

/-! ### Operating-Mode Supervisor -/

/-- `SET_MODE` completes in every state: the current mode or a value of 3 or more changes nothing; another mode is entered
with the sub-states and the rotation counter at 0 (R192), and nothing else changes (R191). -/
def Obligations.SetModeResult : Prop :=
  ∀ (mode : Nat) (s : State),
    ((3 ≤ mode ∨ modeOf mode = some s.sup.mode) → exec (.setMode mode) s = .next { s with resp := .none }) ∧
    (∀ m, modeOf mode = some m → m ≠ s.sup.mode →
      exec (.setMode mode) s =
        .next { s with sup := { mode := m, subMan := 0, subCal := 0, subAuto := 0, rotCount := 0 }, resp := .none }) ∧
    modeOf 0 = some .manual ∧ modeOf 1 = some .calibration ∧ modeOf 2 = some .automatic

/-- A step in Manual mode completes: the controller is disabled and each axis is commanded from its button and switch; nothing
else changes (R194). -/
def Obligations.ManualStepResult : Prop :=
  ∀ (btnH btnV swH swV : Bool) (s : State), s.cfg.Valid → s.sup.mode = .manual →
    ∃ bh bv,
      (if btnH then DriveOf s.cfg .h (if swH then .forward else .reverse) (magOf s.cfg.manualMag) s.srv.h bh
        else DriveOf s.cfg .h .idle 0 s.srv.h bh) ∧
      (if btnV then DriveOf s.cfg .v (if swV then .forward else .reverse) (magOf s.cfg.manualMag) s.srv.v bv
        else DriveOf s.cfg .v .idle 0 s.srv.v bv) ∧
      exec (.supervisorStep btnH btnV swH swV) s =
        .next { s with srv := ⟨bh, bv⟩, ctl := { s.ctl with enabled := false }, resp := .none }

/-- The Calibration and Automatic programs, sub-state by sub-state (R196, R197). -/
def Obligations.ProgramTables : Prop :=
  ∀ c : Params,
    List.ofFn (calProgram c) =
      [.enable, .move c.calHome, .wait, .move c.calFar, .wait, .move c.calHome, .wait, .disable, .idle] ∧
    List.ofFn (autoProgram c) =
      [.enable, .move c.autoHome, .wait, .rotStart 0, .rotating, .move c.autoLatch, .wait, .rotStart 1, .rotating,
        .move c.autoShelf, .wait, .rotStart 2, .rotating, .move c.autoDrop, .wait, .rotStart 3, .rotating,
        .move c.autoHome, .wait, .disable, .idle]

/-- In Calibration and Automatic a supervisor step completes with the effect of the current sub-state, whatever the inputs, and
advances the current mode's counter or does not, as its kind says (R198 to R204). -/
def Obligations.SubStateResult : Prop :=
  ∀ (btnH btnV swH swV : Bool) (s : State) (kind : SubState), s.cfg.Valid → currentSub s = some kind →
    match kind with
    | .enable =>
      ∃ t u, exec (.setControl true) s = .next t ∧ Advanced s.sup u ∧
        exec (.supervisorStep btnH btnV swH swV) s = .next { t with sup := u }
    | .disable =>
      ∃ t u, exec (.setControl false) s = .next t ∧ Advanced s.sup u ∧
        exec (.supervisorStep btnH btnV swH swV) s = .next { t with sup := u }
    | .move h =>
      ∃ (x : U32) (u : Supervisor), x.toInt = min (max h.toInt s.cfg.spMin.toInt) s.cfg.spMax.toInt ∧ Advanced s.sup u ∧
        exec (.supervisorStep btnH btnV swH swV) s =
          .next { s with ctl := { s.ctl with setpoint := x }, motionComplete := false, sup := u, resp := .none }
    | .wait =>
      (s.motionComplete = false → exec (.supervisorStep btnH btnV swH swV) s = .next { s with resp := .none }) ∧
      (s.motionComplete = true → ∃ u, Advanced s.sup u ∧
        exec (.supervisorStep btnH btnV swH swV) s = .next { s with sup := u, resp := .none })
    | .rotStart k =>
      ∃ b u, DriveOf s.cfg .h (s.cfg.rotDir.get k).toDir (magOf s.cfg.rotMag) s.srv.h b ∧
        u.rotCount.toNat = s.cfg.rotSteps.get k ∧ Advanced s.sup { u with rotCount := s.sup.rotCount } ∧
        exec (.supervisorStep btnH btnV swH swV) s = .next { s with srv := { s.srv with h := b }, sup := u, resp := .none }
    | .rotating =>
      (s.sup.rotCount.toNat ≤ 1 → ∃ b u, DriveOf s.cfg .h .idle 0 s.srv.h b ∧ u.rotCount = 0 ∧
        Advanced s.sup { u with rotCount := s.sup.rotCount } ∧
        exec (.supervisorStep btnH btnV swH swV) s = .next { s with srv := { s.srv with h := b }, sup := u, resp := .none }) ∧
      (1 < s.sup.rotCount.toNat → ∃ n : U32, n.toNat = s.sup.rotCount.toNat - 1 ∧
        exec (.supervisorStep btnH btnV swH swV) s = .next { s with sup := { s.sup with rotCount := n }, resp := .none })
    | .idle => exec (.supervisorStep btnH btnV swH swV) s = .next { s with resp := .none }

/-- A rotation lasts `ROT_STEPS[k]` ROTATING steps (R202): the horizontal axis stays under the rotation's command until the last
of them commands it Idle, and the counter is then two sub-states on. -/
def Obligations.RotationLasts : Prop :=
  ∀ (s : State) (k : Fin 4) (j : Nat), s.cfg.Valid → errorFree s = true → currentSub s = some (.rotStart k) →
    j ≤ s.cfg.rotSteps.get k →
    ∃ t, runOps (.supervisorStep false false false false :: List.replicate j (.supervisorStep false false false false)) s = some t ∧
      (j < s.cfg.rotSteps.get k → (t.servo .h).cmdDir = (s.cfg.rotDir.get k).toDir ∧
        (t.servo .h).cmdMag.toNat = magOf s.cfg.rotMag ∧ t.sup.rotCount.toNat = s.cfg.rotSteps.get k - j ∧
        t.sup.subAuto.val = s.sup.subAuto.val + 1) ∧
      (j = s.cfg.rotSteps.get k → (t.servo .h).cmdDir = .idle ∧ (t.servo .h).cmdMag = 0 ∧ t.sup.rotCount = 0 ∧
        t.sup.subAuto.val = s.sup.subAuto.val + 2)

/-- Only a supervisor step moves a counter forward, by at most one and only the current mode's; only `SET_MODE` moves one
elsewhere, to 0, and only `SET_MODE` changes the mode (R33, R36, R205). -/
def Obligations.CounterAdvancesByOne : Prop :=
  ∀ (i : Instr) (s t : State), exec i s = .next t →
    ((t.sup.subCal = s.sup.subCal ∧ t.sup.subAuto = s.sup.subAuto) ∨
      ((∃ btnH btnV swH swV, i = .supervisorStep btnH btnV swH swV) ∧ t.sup.mode = s.sup.mode ∧
        ((s.sup.mode = .calibration ∧ t.sup.subCal.val = s.sup.subCal.val + 1 ∧ t.sup.subAuto = s.sup.subAuto) ∨
          (s.sup.mode = .automatic ∧ t.sup.subAuto.val = s.sup.subAuto.val + 1 ∧ t.sup.subCal = s.sup.subCal))) ∨
      ((∃ m, i = .setMode m) ∧ t.sup.mode ≠ s.sup.mode ∧ t.sup.subCal = 0 ∧ t.sup.subAuto = 0)) ∧
    (t.sup.mode ≠ s.sup.mode → ∃ m, i = .setMode m)

/-- No double advance (R205): after the MOVE that enters a WAIT, however many operations follow, as long as none of them changes
the mode (a `SET_MODE` to the current mode or out of range changes nothing, R191) the counter moves only after a controller step
inside the deadzone: the WAIT does not advance on an older signal. -/
def Obligations.WaitNeedsFreshCompletion : Prop :=
  ∀ (btnH btnV swH swV : Bool) (s t : State) (h : U32), currentSub s = some (.move h) →
    exec (.supervisorStep btnH btnV swH swV) s = .next t →
    currentSub t = some .wait ∧ t.motionComplete = false ∧
      ∀ (ops : List Instr) (u : State), (∀ n m, .setMode n ∈ ops → modeOf n = some m → m = s.sup.mode) →
        runOps ops t = some u → errorFree u = true → counter u.sup ≠ counter t.sup →
        ∃ before i rest r, ops = before ++ i :: rest ∧ runOps before t = some r ∧ counter r.sup = counter t.sup ∧
          ControllerInDeadzone r i

/-- With every WAIT satisfied at its first step, Calibration reaches IDLE after exactly 8 supervisor steps and Automatic after
exactly `16 + ROT_STEPS[0] + … + ROT_STEPS[3]` (R207). -/
def Obligations.ProgramStepCounts : Prop :=
  ∀ s : State, s.cfg.Valid → errorFree s = true →
    (s.sup.mode = .calibration → s.sup.subCal = 0 →
      ∀ k, k ≤ 8 → ((satisfiedSteps k s).sup.subCal = 8 ↔ k = 8)) ∧
    (s.sup.mode = .automatic → s.sup.subAuto = 0 →
      ∀ k, k ≤ 16 + s.cfg.rotSteps.r0 + s.cfg.rotSteps.r1 + s.cfg.rotSteps.r2 + s.cfg.rotSteps.r3 →
        ((satisfiedSteps k s).sup.subAuto = 20 ↔
          k = 16 + s.cfg.rotSteps.r0 + s.cfg.rotSteps.r1 + s.cfg.rotSteps.r2 + s.cfg.rotSteps.r3))

/-- Abandoned waits (R206): after `SET_MODE` to another mode the next supervisor step runs the new mode from its first
sub-state, and a return to the old mode starts it from its first sub-state too. -/
def Obligations.ModeChangeRestarts : Prop :=
  ∀ (mode back : Nat) (m : Mode) (s : State), modeOf mode = some m → m ≠ s.sup.mode → modeOf back = some s.sup.mode →
    (∃ t, exec (.setMode mode) s = .next t ∧ t.sup.mode = m ∧ counter t.sup = 0 ∧ t.sup.rotCount = 0 ∧
      (m ≠ .manual → currentSub t = some .enable)) ∧
    (errorFree s = true →
      ∃ t', runOps [.setMode mode, .supervisorStep false false false false, .setMode back] s = some t' ∧
        t'.sup.mode = s.sup.mode ∧ counter t'.sup = 0 ∧ (s.sup.mode ≠ .manual → currentSub t' = some .enable))

/-! ### Errors, responses, relaxed readings -/

/-- An operation changes the error bits only by raising one error: `DT_ZERO` from a controller step with count 0, `OPERAND`
from a gain write with a NaN; it then has no other effect (R241, R242, R244). No operation reads the bits: with other bits set
it does the same, so the block keeps working after an error (R242). -/
def Obligations.ErrorsAndTheirCauses : Prop :=
  ∀ (i : Instr) (s t : State), exec i s = .next t →
    ((t.err = s.err ∧ ∀ e, t.resp ≠ .err e) ∨
      (t = { s with err := { s.err with dt := true }, resp := .err .dtZero } ∧ ((∃ e, i = .pidStep e 0) ∨ i = .ctrlStep 0)) ∨
      (t = { s with err := { s.err with operand := true }, resp := .err .operand } ∧
        ∃ k g, i = setGain k g ∧ binary32 g = .nan)) ∧
    ∀ b : ErrBits, ∃ b', exec i { s with err := b } = .next { t with err := b' }

/-- Only `SAMPLE`, `GET_GAINS`, `PID_STEP` and `CTRL_STEP` return data (R40, R94): the filtered position, the gains, or the
controller's output when it ran and `CtrlIdle` when it did not. -/
def Obligations.ResponsesByOperation : Prop :=
  ∀ (i : Instr) (s t : State), exec i s = .next t → (∀ e, t.resp ≠ .err e) →
    match i with
    | .sample _ => t.resp = .filtered t.flt.y
    | .getGains => t.resp = .gains s.ctl.kp s.ctl.ki s.ctl.kd
    | .pidStep _ _ => if s.ctl.enabled then ∃ u dir mag, t.resp = .ctrl u dir mag else t.resp = .ctrlIdle
    | .ctrlStep _ => if s.ctl.enabled && s.posFresh then ∃ u dir mag, t.resp = .ctrl u dir mag else t.resp = .ctrlIdle
    | _ => t.resp = .none

/-- The relaxed reading of R70 (log 5, 17). A tick inside an `apply_drive` that sees every field new is the command followed by
the tick, one that sees every field old is the tick followed by the command. With no tick inside, the drive commands of an
operation are all it does to the banks and the outputs. With ticks inside them, whatever they see, the operation leaves every
field but the phases, the counts and the widths as it would without, and the invariants hold. -/
def Obligations.TornTickAdmitsBothOrders : Prop :=
  (∀ (d : DriveCommand) (s : State), d.apply (tornTick ⟨true, true, true⟩ d s) = tick (d.apply s)) ∧
  (∀ (d : DriveCommand) (s : State), Inv s → d.apply (tornTick ⟨false, false, false⟩ d s) = d.apply (tick s)) ∧
  (∀ (i : Instr) (s t u : State), exec i s = .next t → i ≠ .tick → i ≠ .disableAll →
    TornDrives (driveCommands i s) 0 s u → t.withDrivesOf u = t) ∧
  (∀ (i : Instr) (n : Nat) (s t u : State), Inv s → exec i s = .next t → 0 < n → TornDrives (driveCommands i s) n s u →
    Inv (t.withDrivesOf u) ∧ ∀ a, u.servo a = (t.servo a).withPhaseOf (u.servo a))
end

