-- ==== Sys2Proof/Laws/Decode.lean ====
section
/-! SUPPORT. The small lemmas of the command-word encoding (`30_encoding.md` R80, R81, R84, R85, R22): fields of a word put together,
each field's coding read back, and the row a word selects. -/

namespace Sys2Proof

/-- A bit read through a field: in range, it is the bit of the word at the shifted place. -/
theorem decide_and_bit {n : Nat} (x : BitVec n) {p : Prop} [Decidable p] {j k : Nat} (hp : p) (h : j = k) :
    (decide p && x.getLsbD j) = x.getLsbD k := by simp [hp, h]

@[simp] theorem fieldsOf_wordOf (f : Fields) : fieldsOf (wordOf f) = f := by
  obtain ⟨opc, fa, fb, h16, imm⟩ := f
  simp only [fieldsOf, wordOf, Fields.mk.injEq]
  refine ⟨?_, ?_, ?_, ?_, ?_⟩ <;> apply BitVec.eq_of_getLsbD_eq <;> intro i hi <;>
    simp only [BitVec.getLsbD_append, BitVec.getLsbD_extractLsb', BitVec.getLsbD_cast] <;> (repeat' split) <;>
    first | omega | exact decide_and_bit _ hi (by omega)

theorem wordOf_fieldsOf (w : CmdWord) : wordOf (fieldsOf w) = w := by
  apply BitVec.eq_of_getLsbD_eq; intro i hi
  simp only [fieldsOf, wordOf, BitVec.getLsbD_append, BitVec.getLsbD_extractLsb', BitVec.getLsbD_cast]
  repeat' split
  all_goals exact decide_and_bit _ (by omega) (by omega)

@[simp] theorem Axis.ofField_toField (a : Axis) : Axis.ofField a.toField = some a := by cases a <;> rfl

@[simp] theorem Dir.ofField_toField (d : Dir) : Dir.ofField d.toField = some d := by cases d <;> rfl

@[simp] theorem enableOfField_toField (en : Bool) : enableOfField (enableToField en) = some en := by cases en <;> rfl

@[simp] theorem Opcode.ofByte_byte (op : Opcode) : Opcode.ofByte op.byte = some op := by cases op <;> decide

/-- The only operation code an OPC value names is one with that byte (R84). -/
theorem Opcode.byte_of_ofByte {b : BitVec 8} {op : Opcode} (h : Opcode.ofByte b = some op) : op.byte = b := by
  simpa using List.find?_some h

/-- A word selects the row of an operation exactly when the bits that the row's mask keeps are the row's pattern (R85); in
particular its OPC is the row's. -/
theorem Opcode.selectedBy_iff (op : Opcode) (w : CmdWord) : op.selectedBy w = true ↔ w &&& op.mask = op.pattern := by
  simp [Opcode.selectedBy]

/-- Every mask keeps OPC, so a word selects at most the row its OPC names (R85). -/
theorem Opcode.opc_of_selectedBy {op : Opcode} {w : CmdWord} (h : op.selectedBy w = true) : (fieldsOf w).opc = op.byte := by
  rw [Opcode.selectedBy_iff] at h
  have h1 := congrArg (BitVec.extractLsb' 56 8) h
  have h2 : (w &&& op.mask).extractLsb' 56 8 = w.extractLsb' 56 8 &&& op.mask.extractLsb' 56 8 := by
    apply BitVec.eq_of_getLsbD_eq; intro i hi; simp [hi]
  have h3 : op.mask.extractLsb' 56 8 = BitVec.allOnes 8 := by cases op <;> decide
  have h4 : op.pattern.extractLsb' 56 8 = op.byte := by cases op <;> decide
  rw [h2, h3, h4, BitVec.and_allOnes] at h1
  exact h1

/-- The codes of the operations are different (R85). -/
theorem Opcode.byte_inj {a b : Opcode} (h : a.byte = b.byte) : a = b := by
  have := congrArg Opcode.ofByte h; simpa using this

/-- The fields of two words, bit by bit. -/
def Fields.and (f g : Fields) : Fields := ⟨f.opc &&& g.opc, f.fa &&& g.fa, f.fb &&& g.fb, f.h16 &&& g.h16, f.imm &&& g.imm⟩

theorem fieldsOf_and (v w : CmdWord) : fieldsOf (v &&& w) = (fieldsOf v).and (fieldsOf w) := by
  simp only [fieldsOf, Fields.and, Fields.mk.injEq]
  refine ⟨?_, ?_, ?_, ?_, ?_⟩ <;> apply BitVec.eq_of_getLsbD_eq <;> intro i hi <;> simp [hi]

/-- A word selects a row when its fields do (R85). -/
theorem Opcode.selectedBy_iff_fields (op : Opcode) (w : CmdWord) :
    op.selectedBy w = true ↔ (fieldsOf w).and (fieldsOf op.mask) = fieldsOf op.pattern := by
  rw [Opcode.selectedBy_iff, ← fieldsOf_and]
  exact ⟨fun h => by rw [h], fun h => by rw [← wordOf_fieldsOf (w &&& op.mask), h, wordOf_fieldsOf]⟩

/-- The fields of each row's mask (R85): all ones where the row fixes the field, zeros where it carries an operand. -/
@[simp] theorem Opcode.fieldsOf_mask (op : Opcode) :
    fieldsOf op.mask =
      match op with
      | .setDrive => ⟨0xFF, 0, 0, 0xFFFF, 0⟩
      | .disableAll | .tick | .getGains => ⟨0xFF, 0xF, 0xF, 0xFFFF, 0xFFFFFFFF⟩
      | .sample | .setSetpoint | .setKp | .setKi | .setKd => ⟨0xFF, 0xF, 0xF, 0xFFFF, 0⟩
      | .pidStep => ⟨0xFF, 0xF, 0xF, 0, 0⟩
      | .ctrlStep => ⟨0xFF, 0xF, 0xF, 0, 0xFFFFFFFF⟩
      | .setControl | .setMode | .supervisorStep => ⟨0xFF, 0, 0xF, 0xFFFF, 0xFFFFFFFF⟩ := by
  cases op <;> decide

/-- The fields of each row's match (R85): the code, every other field 0. -/
@[simp] theorem Opcode.fieldsOf_pattern (op : Opcode) : fieldsOf op.pattern = ⟨op.byte, 0, 0, 0, 0⟩ := by cases op <;> decide

/-- The row's mask keeps its code (R85). -/
@[simp] theorem Opcode.byte_and_ones (op : Opcode) : op.byte &&& 255#8 = op.byte := by cases op <;> decide

end Sys2Proof
end

