-- ==== Sys2Proof/Laws/State.lean ====
section
/-! SUPPORT. The field lemmas of the state's updates: what each update of a state writes and what it leaves, field by field, so
that no proof unfolds a record update. -/

namespace Sys2Proof

section PerAxis

variable {α : Type} (p : PerAxis α) (a b : Axis) (e e' : α)

@[simp] theorem PerAxis.get_set_self : (p.set a e).get a = e := by cases a <;> rfl

theorem PerAxis.get_set_ne (h : b ≠ a) : (p.set a e).get b = p.get b := by cases a <;> cases b <;> simp_all <;> rfl

@[simp] theorem PerAxis.set_get : p.set a (p.get a) = p := by cases a <;> rfl

@[simp] theorem PerAxis.set_set : (p.set a e).set a e' = p.set a e' := by cases a <;> rfl

@[simp] theorem PerAxis.set_h_v : (p.set .h e).v = p.v := rfl

@[simp] theorem PerAxis.set_h_h : (p.set .h e).h = e := rfl

@[simp] theorem PerAxis.set_v_h : (p.set .v e).h = p.h := rfl

@[simp] theorem PerAxis.set_v_v : (p.set .v e).v = e := rfl

theorem PerAxis.ext_get {p q : PerAxis α} (h : ∀ a, p.get a = q.get a) : p = q := by
  cases p; cases q; exact congr (congrArg PerAxis.mk (h .h)) (h .v)

end PerAxis

end Sys2Proof

namespace Sys2Proof.Machine

section setServo

variable (s : State) (a : Axis) (b : Servo)

@[simp] theorem setServo_cfg : (s.setServo a b).cfg = s.cfg := rfl

@[simp] theorem setServo_srv : (s.setServo a b).srv = s.srv.set a b := rfl

@[simp] theorem setServo_out : (s.setServo a b).out = s.out := rfl

@[simp] theorem setServo_estop : (s.setServo a b).estop = s.estop := rfl

@[simp] theorem setServo_flt : (s.setServo a b).flt = s.flt := rfl

@[simp] theorem setServo_posFresh : (s.setServo a b).posFresh = s.posFresh := rfl

@[simp] theorem setServo_ctl : (s.setServo a b).ctl = s.ctl := rfl

@[simp] theorem setServo_motionComplete : (s.setServo a b).motionComplete = s.motionComplete := rfl

@[simp] theorem setServo_sup : (s.setServo a b).sup = s.sup := rfl

@[simp] theorem setServo_err : (s.setServo a b).err = s.err := rfl

@[simp] theorem setServo_port : (s.setServo a b).port = s.port := rfl

@[simp] theorem setServo_resp : (s.setServo a b).resp = s.resp := rfl

end setServo

section setChannel

variable (s : State) (a : Axis) (c : Channel)

@[simp] theorem setChannel_cfg : (s.setChannel a c).cfg = s.cfg := rfl

@[simp] theorem setChannel_srv : (s.setChannel a c).srv = s.srv := rfl

@[simp] theorem setChannel_out : (s.setChannel a c).out = s.out.set a c := rfl

@[simp] theorem setChannel_estop : (s.setChannel a c).estop = s.estop := rfl

@[simp] theorem setChannel_flt : (s.setChannel a c).flt = s.flt := rfl

@[simp] theorem setChannel_posFresh : (s.setChannel a c).posFresh = s.posFresh := rfl

@[simp] theorem setChannel_ctl : (s.setChannel a c).ctl = s.ctl := rfl

@[simp] theorem setChannel_motionComplete : (s.setChannel a c).motionComplete = s.motionComplete := rfl

@[simp] theorem setChannel_sup : (s.setChannel a c).sup = s.sup := rfl

@[simp] theorem setChannel_err : (s.setChannel a c).err = s.err := rfl

@[simp] theorem setChannel_port : (s.setChannel a c).port = s.port := rfl

@[simp] theorem setChannel_resp : (s.setChannel a c).resp = s.resp := rfl

end setChannel

section respond

variable (s : State) (r : Response)

@[simp] theorem respond_cfg : (respond r s).cfg = s.cfg := rfl

@[simp] theorem respond_srv : (respond r s).srv = s.srv := rfl

@[simp] theorem respond_out : (respond r s).out = s.out := rfl

@[simp] theorem respond_estop : (respond r s).estop = s.estop := rfl

@[simp] theorem respond_flt : (respond r s).flt = s.flt := rfl

@[simp] theorem respond_posFresh : (respond r s).posFresh = s.posFresh := rfl

@[simp] theorem respond_ctl : (respond r s).ctl = s.ctl := rfl

@[simp] theorem respond_motionComplete : (respond r s).motionComplete = s.motionComplete := rfl

@[simp] theorem respond_sup : (respond r s).sup = s.sup := rfl

@[simp] theorem respond_err : (respond r s).err = s.err := rfl

@[simp] theorem respond_port : (respond r s).port = s.port := rfl

@[simp] theorem respond_resp : (respond r s).resp = r := rfl

end respond

section raise

variable (s : State) (e : ErrCode)

@[simp] theorem raise_cfg : (raise e s).cfg = s.cfg := rfl

@[simp] theorem raise_srv : (raise e s).srv = s.srv := rfl

@[simp] theorem raise_out : (raise e s).out = s.out := rfl

@[simp] theorem raise_estop : (raise e s).estop = s.estop := rfl

@[simp] theorem raise_flt : (raise e s).flt = s.flt := rfl

@[simp] theorem raise_posFresh : (raise e s).posFresh = s.posFresh := rfl

@[simp] theorem raise_ctl : (raise e s).ctl = s.ctl := rfl

@[simp] theorem raise_motionComplete : (raise e s).motionComplete = s.motionComplete := rfl

@[simp] theorem raise_sup : (raise e s).sup = s.sup := rfl

@[simp] theorem raise_err : (raise e s).err = s.err.raised e := rfl

@[simp] theorem raise_port : (raise e s).port = s.port := rfl

@[simp] theorem raise_resp : (raise e s).resp = .err e := rfl

end raise

section applyDrive

variable (s : State) (a : Axis) (dir : Dir) (mag : Int)

@[simp] theorem applyDrive_cfg : (applyDrive a dir mag s).cfg = s.cfg := rfl

@[simp] theorem applyDrive_srv : (applyDrive a dir mag s).srv = s.srv.set a ((s.servo a).driven s.cfg a dir mag) := rfl

@[simp] theorem applyDrive_out : (applyDrive a dir mag s).out = s.out := rfl

@[simp] theorem applyDrive_estop : (applyDrive a dir mag s).estop = s.estop := rfl

@[simp] theorem applyDrive_flt : (applyDrive a dir mag s).flt = s.flt := rfl

@[simp] theorem applyDrive_posFresh : (applyDrive a dir mag s).posFresh = s.posFresh := rfl

@[simp] theorem applyDrive_ctl : (applyDrive a dir mag s).ctl = s.ctl := rfl

@[simp] theorem applyDrive_motionComplete : (applyDrive a dir mag s).motionComplete = s.motionComplete := rfl

@[simp] theorem applyDrive_sup : (applyDrive a dir mag s).sup = s.sup := rfl

@[simp] theorem applyDrive_err : (applyDrive a dir mag s).err = s.err := rfl

@[simp] theorem applyDrive_port : (applyDrive a dir mag s).port = s.port := rfl

@[simp] theorem applyDrive_resp : (applyDrive a dir mag s).resp = s.resp := rfl

end applyDrive

section postSetpoint

variable (s : State) (sp : Int)

@[simp] theorem postSetpoint_cfg : (postSetpoint sp s).cfg = s.cfg := rfl

@[simp] theorem postSetpoint_srv : (postSetpoint sp s).srv = s.srv := rfl

@[simp] theorem postSetpoint_out : (postSetpoint sp s).out = s.out := rfl

@[simp] theorem postSetpoint_estop : (postSetpoint sp s).estop = s.estop := rfl

@[simp] theorem postSetpoint_flt : (postSetpoint sp s).flt = s.flt := rfl

@[simp] theorem postSetpoint_posFresh : (postSetpoint sp s).posFresh = s.posFresh := rfl

@[simp] theorem postSetpoint_ctl : (postSetpoint sp s).ctl = { s.ctl with setpoint := ofS32 (clamp sp s.cfg.spMin.toInt s.cfg.spMax.toInt) } := rfl

@[simp] theorem postSetpoint_motionComplete : (postSetpoint sp s).motionComplete = s.motionComplete := rfl

@[simp] theorem postSetpoint_sup : (postSetpoint sp s).sup = s.sup := rfl

@[simp] theorem postSetpoint_err : (postSetpoint sp s).err = s.err := rfl

@[simp] theorem postSetpoint_port : (postSetpoint sp s).port = s.port := rfl

@[simp] theorem postSetpoint_resp : (postSetpoint sp s).resp = s.resp := rfl

end postSetpoint

section enterMode

variable (s : State) (m : Mode)

@[simp] theorem enterMode_cfg : (enterMode m s).cfg = s.cfg := rfl

@[simp] theorem enterMode_srv : (enterMode m s).srv = s.srv := rfl

@[simp] theorem enterMode_out : (enterMode m s).out = s.out := rfl

@[simp] theorem enterMode_estop : (enterMode m s).estop = s.estop := rfl

@[simp] theorem enterMode_flt : (enterMode m s).flt = s.flt := rfl

@[simp] theorem enterMode_posFresh : (enterMode m s).posFresh = s.posFresh := rfl

@[simp] theorem enterMode_ctl : (enterMode m s).ctl = s.ctl := rfl

@[simp] theorem enterMode_motionComplete : (enterMode m s).motionComplete = s.motionComplete := rfl

@[simp] theorem enterMode_sup : (enterMode m s).sup = { mode := m, subMan := 0, subCal := 0, subAuto := 0, rotCount := 0 } := rfl

@[simp] theorem enterMode_err : (enterMode m s).err = s.err := rfl

@[simp] theorem enterMode_port : (enterMode m s).port = s.port := rfl

@[simp] theorem enterMode_resp : (enterMode m s).resp = s.resp := rfl

end enterMode

section disableAll

variable (s : State)

@[simp] theorem disableAll_cfg : (disableAll s).cfg = s.cfg := rfl

@[simp] theorem disableAll_srv : (disableAll s).srv = s.srv := rfl

@[simp] theorem disableAll_out : (disableAll s).out = ⟨{ s.out.h with en := false }, { s.out.v with en := false }⟩ := rfl

@[simp] theorem disableAll_estop : (disableAll s).estop = true := rfl

@[simp] theorem disableAll_flt : (disableAll s).flt = s.flt := rfl

@[simp] theorem disableAll_posFresh : (disableAll s).posFresh = s.posFresh := rfl

@[simp] theorem disableAll_ctl : (disableAll s).ctl = s.ctl := rfl

@[simp] theorem disableAll_motionComplete : (disableAll s).motionComplete = s.motionComplete := rfl

@[simp] theorem disableAll_sup : (disableAll s).sup = s.sup := rfl

@[simp] theorem disableAll_err : (disableAll s).err = s.err := rfl

@[simp] theorem disableAll_port : (disableAll s).port = s.port := rfl

@[simp] theorem disableAll_resp : (disableAll s).resp = s.resp := rfl

end disableAll

section tickAxis

variable (s : State) (a : Axis)

@[simp] theorem tickAxis_cfg : (tickAxis a s).cfg = s.cfg := rfl

@[simp] theorem tickAxis_srv : (tickAxis a s).srv = s.srv.set a (s.servo a).ticked := rfl

@[simp] theorem tickAxis_out : (tickAxis a s).out = s.out.set a { s.channel a with pw := (s.servo a).ticked.width } := rfl

@[simp] theorem tickAxis_estop : (tickAxis a s).estop = s.estop := rfl

@[simp] theorem tickAxis_flt : (tickAxis a s).flt = s.flt := rfl

@[simp] theorem tickAxis_posFresh : (tickAxis a s).posFresh = s.posFresh := rfl

@[simp] theorem tickAxis_ctl : (tickAxis a s).ctl = s.ctl := rfl

@[simp] theorem tickAxis_motionComplete : (tickAxis a s).motionComplete = s.motionComplete := rfl

@[simp] theorem tickAxis_sup : (tickAxis a s).sup = s.sup := rfl

@[simp] theorem tickAxis_err : (tickAxis a s).err = s.err := rfl

@[simp] theorem tickAxis_port : (tickAxis a s).port = s.port := rfl

@[simp] theorem tickAxis_resp : (tickAxis a s).resp = s.resp := rfl

end tickAxis

section tick

variable (s : State)

@[simp] theorem tick_cfg : (tick s).cfg = s.cfg := by unfold tick; split <;> rfl

@[simp] theorem tick_estop : (tick s).estop = s.estop := by unfold tick; split <;> rfl

@[simp] theorem tick_flt : (tick s).flt = s.flt := by unfold tick; split <;> rfl

@[simp] theorem tick_posFresh : (tick s).posFresh = s.posFresh := by unfold tick; split <;> rfl

@[simp] theorem tick_ctl : (tick s).ctl = s.ctl := by unfold tick; split <;> rfl

@[simp] theorem tick_motionComplete : (tick s).motionComplete = s.motionComplete := by unfold tick; split <;> rfl

@[simp] theorem tick_sup : (tick s).sup = s.sup := by unfold tick; split <;> rfl

@[simp] theorem tick_err : (tick s).err = s.err := by unfold tick; split <;> rfl

@[simp] theorem tick_port : (tick s).port = s.port := by unfold tick; split <;> rfl

@[simp] theorem tick_resp : (tick s).resp = s.resp := by unfold tick; split <;> rfl

end tick

section onEnable

variable (s : State)

@[simp] theorem onEnable_cfg : (onEnable s).cfg = s.cfg := by unfold onEnable; split <;> rfl

@[simp] theorem onEnable_srv : (onEnable s).srv = s.srv := by unfold onEnable; split <;> rfl

@[simp] theorem onEnable_out : (onEnable s).out = s.out := by unfold onEnable; split <;> rfl

@[simp] theorem onEnable_estop : (onEnable s).estop = s.estop := by unfold onEnable; split <;> rfl

@[simp] theorem onEnable_flt : (onEnable s).flt = s.flt := by unfold onEnable; split <;> rfl

@[simp] theorem onEnable_posFresh : (onEnable s).posFresh = s.posFresh := by unfold onEnable; split <;> rfl

@[simp] theorem onEnable_motionComplete : (onEnable s).motionComplete = s.motionComplete := by unfold onEnable; split <;> rfl

@[simp] theorem onEnable_sup : (onEnable s).sup = s.sup := by unfold onEnable; split <;> rfl

@[simp] theorem onEnable_err : (onEnable s).err = s.err := by unfold onEnable; split <;> rfl

@[simp] theorem onEnable_port : (onEnable s).port = s.port := by unfold onEnable; split <;> rfl

@[simp] theorem onEnable_resp : (onEnable s).resp = s.resp := by unfold onEnable; split <;> rfl

end onEnable

section setControl

variable (s : State) (en : Bool)

@[simp] theorem setControl_cfg : (setControl en s).cfg = s.cfg := by unfold setControl; dsimp only; split <;> split <;> simp

@[simp] theorem setControl_out : (setControl en s).out = s.out := by unfold setControl; dsimp only; split <;> split <;> simp

@[simp] theorem setControl_estop : (setControl en s).estop = s.estop := by unfold setControl; dsimp only; split <;> split <;> simp

@[simp] theorem setControl_flt : (setControl en s).flt = s.flt := by unfold setControl; dsimp only; split <;> split <;> simp

@[simp] theorem setControl_posFresh : (setControl en s).posFresh = s.posFresh := by unfold setControl; dsimp only; split <;> split <;> simp

@[simp] theorem setControl_motionComplete : (setControl en s).motionComplete = s.motionComplete := by unfold setControl; dsimp only; split <;> split <;> simp

@[simp] theorem setControl_sup : (setControl en s).sup = s.sup := by unfold setControl; dsimp only; split <;> split <;> simp

@[simp] theorem setControl_err : (setControl en s).err = s.err := by unfold setControl; dsimp only; split <;> split <;> simp

@[simp] theorem setControl_port : (setControl en s).port = s.port := by unfold setControl; dsimp only; split <;> split <;> simp

@[simp] theorem setControl_resp : (setControl en s).resp = s.resp := by unfold setControl; dsimp only; split <;> split <;> simp

end setControl

section advanceSub

variable (s : State)

@[simp] theorem advanceSub_cfg : (advanceSub s).cfg = s.cfg := by unfold advanceSub; split <;> rfl

@[simp] theorem advanceSub_srv : (advanceSub s).srv = s.srv := by unfold advanceSub; split <;> rfl

@[simp] theorem advanceSub_out : (advanceSub s).out = s.out := by unfold advanceSub; split <;> rfl

@[simp] theorem advanceSub_estop : (advanceSub s).estop = s.estop := by unfold advanceSub; split <;> rfl

@[simp] theorem advanceSub_flt : (advanceSub s).flt = s.flt := by unfold advanceSub; split <;> rfl

@[simp] theorem advanceSub_posFresh : (advanceSub s).posFresh = s.posFresh := by unfold advanceSub; split <;> rfl

@[simp] theorem advanceSub_ctl : (advanceSub s).ctl = s.ctl := by unfold advanceSub; split <;> rfl

@[simp] theorem advanceSub_motionComplete : (advanceSub s).motionComplete = s.motionComplete := by unfold advanceSub; split <;> rfl

@[simp] theorem advanceSub_err : (advanceSub s).err = s.err := by unfold advanceSub; split <;> rfl

@[simp] theorem advanceSub_port : (advanceSub s).port = s.port := by unfold advanceSub; split <;> rfl

@[simp] theorem advanceSub_resp : (advanceSub s).resp = s.resp := by unfold advanceSub; split <;> rfl

end advanceSub

section pid

variable (s : State) (e : Int) (dt : Rat)

@[simp] theorem pid_cfg : (pid e dt s).cfg = s.cfg := by simp [pid]

@[simp] theorem pid_srv : (pid e dt s).srv = s.srv.set .v ((s.servo .v).driven s.cfg .v (driveDir s.cfg (pidOutput s.cfg s.ctl e dt)) (driveMag (pidOutput s.cfg s.ctl e dt))) := by simp [pid, State.servo]

@[simp] theorem pid_out : (pid e dt s).out = s.out := by simp [pid]

@[simp] theorem pid_estop : (pid e dt s).estop = s.estop := by simp [pid]

@[simp] theorem pid_flt : (pid e dt s).flt = s.flt := by simp [pid]

@[simp] theorem pid_posFresh : (pid e dt s).posFresh = s.posFresh := by simp [pid]

@[simp] theorem pid_ctl : (pid e dt s).ctl = { s.ctl with integ := nextIntegral s.cfg s.ctl e dt, prevErr := e } := by simp [pid]

@[simp] theorem pid_motionComplete : (pid e dt s).motionComplete = (inDeadzone s.cfg e || s.motionComplete) := by simp [pid]

@[simp] theorem pid_sup : (pid e dt s).sup = s.sup := by simp [pid]

@[simp] theorem pid_err : (pid e dt s).err = s.err := by simp [pid]

@[simp] theorem pid_port : (pid e dt s).port = s.port := by simp [pid]

@[simp] theorem pid_resp : (pid e dt s).resp = s.resp := by simp [pid]

end pid

end Sys2Proof.Machine
end

