-- ==== Sys2Proof/Laws/Ops.lean ====
section
/-! SUPPORT. What each shared operation does, said once: reading a bank or a channel after a write, the drive command of
`40_actuation.md` R101, the enable gate of `42_controller.md` R161, a tick of R104, an advance of `43_supervisor.md` R198, and the
shape of a step. -/

namespace Sys2Proof.Machine

@[simp] theorem servo_setServo_self (s : State) (a : Axis) (b : Servo) : (s.setServo a b).servo a = b := by simp [State.servo]

theorem servo_setServo_ne (s : State) {a a' : Axis} (b : Servo) (h : a' ≠ a) : (s.setServo a b).servo a' = s.servo a' := by
  simp [State.servo, PerAxis.get_set_ne _ _ _ _ h]

@[simp] theorem servo_applyDrive_self (s : State) (a : Axis) (dir : Dir) (mag : Int) :
    (applyDrive a dir mag s).servo a = (s.servo a).driven s.cfg a dir mag := by simp [State.servo]

theorem servo_applyDrive_ne (s : State) {a a' : Axis} (dir : Dir) (mag : Int) (h : a' ≠ a) :
    (applyDrive a dir mag s).servo a' = s.servo a' := by simp [State.servo, PerAxis.get_set_ne _ _ _ _ h]

/-- The clamped magnitude lies in [0, 100] (R101). -/
theorem clampMag_le (m : Int) : clampMag m ≤ 100 := by simp only [clampMag, clamp]; omega

/-- The clamped magnitude of a value in range is the value (R101). -/
theorem clampMag_of_mem {m : Int} (h0 : 0 ≤ m) (h1 : m ≤ 100) : clampMag m = m.toNat := by simp only [clampMag, clamp]; omega

/-- A clamp's result is at least the lower bound, when the bounds are in order (R11). -/
theorem le_clamp {α : Type} [LinearOrder α] (x : α) {lo hi : α} (h : lo ≤ hi) : lo ≤ clamp x lo hi :=
  le_min (le_max_right _ _) h

/-- A clamp's result is at most the upper bound (R11). -/
theorem clamp_le {α : Type} [LinearOrder α] (x lo hi : α) : clamp x lo hi ≤ hi := min_le_right _ _

/-- A value inside the bounds is not changed by a clamp (R11). -/
theorem clamp_of_mem {α : Type} [LinearOrder α] {x lo hi : α} (h0 : lo ≤ x) (h1 : x ≤ hi) : clamp x lo hi = x := by
  rw [clamp, max_eq_left h0, min_eq_left h1]

/-- `set_control(1)` on an enabled controller and `set_control(0)` on a disabled one change nothing (R161). -/
theorem setControl_same (s : State) : setControl s.ctl.enabled s = s := by
  have h : ∀ en, s.ctl.enabled = en → setControl en s = s := by
    intro en h; unfold setControl; subst h; cases s with | mk => simp
  exact h _ rfl

/-- An enabling edge (R161): the gate is set, and the PID state cleared when `PID_CLEAR_ON_ENABLE` says so. -/
theorem setControl_enable {s : State} (h : s.ctl.enabled = false) :
    setControl true s = { s with ctl := { (onEnable s).ctl with enabled := true } } := by
  unfold setControl onEnable; simp only [h]; cases s.cfg.pidClearOnEnable <;> rfl

/-- A disabling edge (R161): the vertical axis is commanded Idle and the gate cleared. -/
theorem setControl_disable {s : State} (h : s.ctl.enabled = true) :
    setControl false s = { applyDrive .v .idle 0 s with ctl := { s.ctl with enabled := false } } := by
  unfold setControl; simp only [h]; rfl

@[simp] theorem setControl_enabled (s : State) (en : Bool) : (setControl en s).ctl.enabled = en := rfl

/-- A tick without `estop` (R104): each axis's phase advances and its output follows the updated phase. -/
theorem tick_running {s : State} (h : s.estop = false) :
    tick s =
      { s with
        srv := ⟨s.srv.h.ticked, s.srv.v.ticked⟩
        out := ⟨{ s.out.h with pw := s.srv.h.ticked.width }, { s.out.v with pw := s.srv.v.ticked.width }⟩ } := by
  unfold tick; simp only [h]; cases s; simp_all [tickAxis, State.setServo, State.setChannel, State.servo, State.channel]; exact ⟨rfl, rfl⟩

/-- A tick while `estop` is set (R107). -/
theorem tick_stopped {s : State} (h : s.estop = true) : tick s = s := by unfold tick; rw [h]; rfl

/-- An advance writes the current mode's counter and nothing else (R198). -/
theorem advanceSub_eq (s : State) : ∃ cal auto, advanceSub s = { s with sup := { s.sup with subCal := cal, subAuto := auto } } := by
  unfold advanceSub; split
  · exact ⟨s.sup.subCal, s.sup.subAuto, rfl⟩
  · exact ⟨nextSub s.sup.subCal, s.sup.subAuto, rfl⟩
  · exact ⟨s.sup.subCal, nextSub s.sup.subAuto, rfl⟩

/-- What a step can do: nothing when no word is pending, the effect of the decoded operation, or `raise ILLEGAL` (R89). -/
theorem step_cases (s : State) :
    (s.port = [] ∧ step s = .next s) ∨
    (∃ w rest i, s.port = w :: rest ∧ decode w = .ok i ∧ step s = exec i { s with port := rest }) ∨
    (∃ w rest why, s.port = w :: rest ∧ decode w = .error why ∧ step s = .next (raise .illegal { s with port := rest })) := by
  unfold step fetch
  cases hp : s.port with
  | nil => exact .inl ⟨rfl, rfl⟩
  | cons w rest =>
    cases hd : decode w with
    | ok i => exact .inr (.inl ⟨w, rest, i, rfl, hd, by simp [hd]⟩)
    | error why => exact .inr (.inr ⟨w, rest, why, rfl, hd, by simp [hd, rejectWord]⟩)

end Sys2Proof.Machine
end

