-- ==== Sys2Proof/Laws/PerInstr.lean ====
section
/-! SUPPORT. The statements made of every instruction as syntax, one lemma per constructor: the word of an operation selects the
operation's own row of the opcode table and no other (`30_encoding.md` R85). -/

namespace Sys2Proof.Laws

/-- The word of `i` matches the mask and match of its own row of R85, and of no other row. -/
def RowSelected.Statement (i : Instr) : Prop :=
  i.opcode.selectedBy (encode i) = true ∧ ∀ op : Opcode, op.selectedBy (encode i) = true → op = i.opcode

/-- A word selects at most one row (R85): the codes differ and every mask keeps the code. -/
theorem rowSelected_of_selected {i : Instr} (h : i.opcode.selectedBy (encode i) = true) : RowSelected.Statement i :=
  ⟨h, fun _ ho => Opcode.byte_inj ((Opcode.opc_of_selectedBy ho).symm.trans (Opcode.opc_of_selectedBy h))⟩

/-- The fields of a word, masked and compared with a row's (R85). -/
theorem selected_of_fields {i : Instr} (h : i.fields.and (fieldsOf i.opcode.mask) = fieldsOf i.opcode.pattern) :
    RowSelected.Statement i :=
  rowSelected_of_selected (by rw [Opcode.selectedBy_iff_fields, encode, fieldsOf_wordOf, h])

theorem RowSelected.setDrive (a : Axis) (d : Dir) (mag : Int) : RowSelected.Statement (.setDrive a d mag) :=
  selected_of_fields (by simp [Instr.opcode, Instr.fields, Fields.and])

theorem RowSelected.disableAll : RowSelected.Statement .disableAll :=
  selected_of_fields (by simp [Instr.opcode, Instr.fields, Fields.and])

theorem RowSelected.tick : RowSelected.Statement .tick :=
  selected_of_fields (by simp [Instr.opcode, Instr.fields, Fields.and])

theorem RowSelected.sample (raw : U32) : RowSelected.Statement (.sample raw) :=
  selected_of_fields (by simp [Instr.opcode, Instr.fields, Fields.and])

theorem RowSelected.pidStep (errIn : Int) (n : Nat) : RowSelected.Statement (.pidStep errIn n) :=
  selected_of_fields (by simp [Instr.opcode, Instr.fields, Fields.and])

theorem RowSelected.ctrlStep (n : Nat) : RowSelected.Statement (.ctrlStep n) :=
  selected_of_fields (by simp [Instr.opcode, Instr.fields, Fields.and])

theorem RowSelected.setSetpoint (sp : Int) : RowSelected.Statement (.setSetpoint sp) :=
  selected_of_fields (by simp [Instr.opcode, Instr.fields, Fields.and])

theorem RowSelected.setControl (en : Bool) : RowSelected.Statement (.setControl en) :=
  selected_of_fields (by simp [Instr.opcode, Instr.fields, Fields.and])

theorem RowSelected.setKp (g : U32) : RowSelected.Statement (.setKp g) :=
  selected_of_fields (by simp [Instr.opcode, Instr.fields, Fields.and])

theorem RowSelected.setKi (g : U32) : RowSelected.Statement (.setKi g) :=
  selected_of_fields (by simp [Instr.opcode, Instr.fields, Fields.and])

theorem RowSelected.setKd (g : U32) : RowSelected.Statement (.setKd g) :=
  selected_of_fields (by simp [Instr.opcode, Instr.fields, Fields.and])

theorem RowSelected.getGains : RowSelected.Statement .getGains :=
  selected_of_fields (by simp [Instr.opcode, Instr.fields, Fields.and])

theorem RowSelected.setMode (mode : Nat) : RowSelected.Statement (.setMode mode) :=
  selected_of_fields (by simp [Instr.opcode, Instr.fields, Fields.and])

theorem RowSelected.supervisorStep (btnH btnV swH swV : Bool) : RowSelected.Statement (.supervisorStep btnH btnV swH swV) :=
  selected_of_fields (by simp [Instr.opcode, Instr.fields, Fields.and])

end Sys2Proof.Laws
end

