-- ==== Sys2Proof/Laws/Relaxed.lean ====
section
/-! SUPPORT. The list of drive commands of an operation (`20_memory.md` R70) is what its meaning does to the banks: each command is
one `apply_drive` of R101, and an operation that applies none leaves the banks alone. A late stop (D23) with nothing before its tick. -/

namespace Sys2Proof.Machine

/-- The commands applied one after the other. -/
def applyAll (ds : List DriveCommand) (s : State) : State := ds.foldl (fun u d => d.apply u) s

@[simp] theorem applyAll_nil (s : State) : applyAll [] s = s := rfl

@[simp] theorem applyAll_cons (d : DriveCommand) (ds : List DriveCommand) (s : State) :
    applyAll (d :: ds) s = applyAll ds (d.apply s) := rfl

@[simp] theorem driveCommand_apply (a : Axis) (dir : Dir) (mag : Int) (s : State) :
    DriveCommand.apply ⟨a, dir, mag⟩ s = applyDrive a dir mag s := rfl

@[simp] theorem lateStop_estop (s : State) : (lateStop s).estop = true := rfl

@[simp] theorem lateStop_srv (s : State) : (lateStop s).srv = (tick s).srv := rfl

@[simp] theorem withDrivesOf_srv (t u : State) : (t.withDrivesOf u).srv = u.srv := rfl

@[simp] theorem withDrivesOf_out (t u : State) : (t.withDrivesOf u).out = u.out := rfl

@[simp] theorem driveCommand_apply_cfg (d : DriveCommand) (s : State) : (d.apply s).cfg = s.cfg := rfl

@[simp] theorem driveCommand_apply_out (d : DriveCommand) (s : State) : (d.apply s).out = s.out := rfl

@[simp] theorem tornTick_cfg (p : Torn) (d : DriveCommand) (s : State) : (tornTick p d s).cfg = s.cfg := by
  simp [tornTick, DriveCommand.halfApplied]

@[simp] theorem tornTick_estop (p : Torn) (d : DriveCommand) (s : State) : (tornTick p d s).estop = s.estop := by
  simp [tornTick, DriveCommand.halfApplied]

/-- What commands leave of the banks depends on the parameters and the banks alone (R101). -/
theorem applyAll_srv_congr (ds : List DriveCommand) {s s' : State} (hc : s.cfg = s'.cfg) (h : s.srv = s'.srv) :
    (applyAll ds s).srv = (applyAll ds s').srv := by
  induction ds generalizing s s' with
  | nil => exact h
  | cons d ds ih => exact ih hc (by simp [DriveCommand.apply, State.servo, hc, h])

theorem applyAll_append (ds es : List DriveCommand) (s : State) : applyAll (ds ++ es) s = applyAll es (applyAll ds s) := by
  simp [applyAll]

@[simp] theorem applyAll_cfg (ds : List DriveCommand) (s : State) : (applyAll ds s).cfg = s.cfg := by
  induction ds generalizing s with
  | nil => rfl
  | cons d ds ih => simp [ih]

/-- `set_control(en)` changes the banks by its commands (R161). -/
theorem setControl_srv (en : Bool) (s : State) : (setControl en s).srv = (applyAll (controlCommands en s) s).srv := by
  cases en <;> cases h : s.ctl.enabled <;> simp [setControl, controlCommands, h]

/-- A sub-state changes the banks by its commands (R198). -/
theorem runSubState_srv (k : SubState) (s : State) : (runSubState k s).srv = (applyAll (subStateCommands k s) s).srv := by
  cases k with
  | enable => simp [runSubState, subStateCommands, setControl_srv, controlCommands]
  | disable => simp [runSubState, subStateCommands, setControl_srv]
  | move h => simp [runSubState, subStateCommands, moveStep, postSetpoint]
  | wait => simp only [runSubState, subStateCommands, waitStep]; split <;> simp
  | rotStart r => simp [runSubState, subStateCommands, rotStartStep]
  | rotating => simp only [runSubState, subStateCommands, rotatingStep]; split <;> simp
  | idle => rfl

/-- A sub-state writes no output (R198). -/
theorem runSubState_out (k : SubState) (s : State) : (runSubState k s).out = s.out := by
  cases k with
  | enable | disable => simp [runSubState, setControl_out]
  | move h => simp [runSubState, moveStep, postSetpoint]
  | wait => simp only [runSubState, waitStep]; split <;> simp
  | rotStart r => simp [runSubState, rotStartStep]
  | rotating => simp only [runSubState, rotatingStep]; split <;> simp
  | idle => rfl

/-- A Manual step's command of one axis (R194). -/
theorem manualAxis_eq (a : Axis) (btn sw : Bool) (s : State) : manualAxis a btn sw s = (manualCommand a btn sw s.cfg).apply s := by
  cases btn <;> rfl

/-- A Manual step changes the banks by its commands (R194). -/
theorem manualStep_srv (btnH btnV swH swV : Bool) (s : State) :
    (manualStep btnH btnV swH swV s).srv =
      (applyAll (controlCommands false s ++ [manualCommand .h btnH swH s.cfg, manualCommand .v btnV swV s.cfg]) s).srv := by
  rw [applyAll_append, manualStep, manualAxis_eq, manualAxis_eq]
  simp only [driveCommand_apply_cfg, setControl_cfg]
  exact applyAll_srv_congr [_, _] (by simp) (setControl_srv false s)

/-- A Manual step writes no output (R194). -/
theorem manualStep_out (btnH btnV swH swV : Bool) (s : State) : (manualStep btnH btnV swH swV s).out = s.out := by
  simp [manualStep, manualAxis_eq]

/-- What every operation but `TICK` and `DISABLE_ALL` does to the banks and the outputs: its drive commands, in order, and
nothing to the outputs (R65, R109). -/
theorem exec_drives {i : Instr} {s t : State} (h : exec i s = .next t) (hi : i ≠ .tick) (hd : i ≠ .disableAll) :
    t.srv = (applyAll (driveCommands i s) s).srv ∧ t.out = s.out := by
  cases i with
  | setDrive a dir mag => cases h; exact ⟨rfl, rfl⟩
  | disableAll => exact absurd rfl hd
  | tick => exact absurd rfl hi
  | sample raw => cases h; exact ⟨rfl, rfl⟩
  | pidStep e n =>
    simp only [exec, execPidStep] at h; simp only [driveCommands]
    split at h <;> [skip; split at h] <;> cases h <;> simp_all [pidCommand]
  | ctrlStep n =>
    simp only [exec, execCtrlStep] at h; simp only [driveCommands]
    split at h <;> [skip; split at h] <;> cases h <;> cases he : s.ctl.enabled <;> simp_all [pidCommand, State.servo]
  | setSetpoint sp => cases h; simp [driveCommands]
  | setControl en => cases h; simp [driveCommands, setControl_srv]
  | setKp g | setKi g | setKd g =>
    simp only [exec, execSetKp, execSetKi, execSetKd] at h
    split at h <;> cases h <;> exact ⟨rfl, rfl⟩
  | getGains => cases h; exact ⟨rfl, rfl⟩
  | setMode m =>
    simp only [exec, execSetMode] at h
    split at h <;> [skip; split at h] <;> cases h <;> exact ⟨rfl, rfl⟩
  | supervisorStep btnH btnV swH swV =>
    simp only [exec, execSupervisorStep] at h; simp only [driveCommands]
    split at h <;> cases h <;> simp [*, manualStep_srv, manualStep_out, runSubState_srv, runSubState_out]

/-- A run of the commands with no tick inside is the commands applied in order. -/
theorem tornDrives_zero {ds : List DriveCommand} {s u : State} (h : TornDrives ds 0 s u) : u = applyAll ds s := by
  generalize hn : (0 : Nat) = n at h
  induction h with
  | done => rfl
  | tick => omega
  | apply d ds n s u _ ih => exact ih hn

/-- A stop that takes hold with the very next word, a `TICK` (D23). -/
theorem late_with_next_word (s : State) (w wt : CmdWord) (rest : List CmdWord) (hp : s.port = w :: wt :: rest)
    (hi : decodesTo .disableAll w = true) (ht : decodesTo .tick wt = true) :
    RelaxedStep s (respond .none (lateStop { s with port := rest })) :=
  .late s _ w wt [] rest hp hi ht (by simp) rfl

end Sys2Proof.Machine
end

