-- ==== Sys2Proof/Tests/Slice0.lean ====
section
/-! SUPPORT. Tests of the model, each on fixed values: words and results copied from `30_encoding.md` R93 and `95_test_vectors.md`
(under its test configuration TC), ill-formed operations, and one witness for each statement that has hypotheses. -/

namespace Sys2Proof.Tests

open Sys2Proof.Machine Sys2Proof.Claims Sys2Proof.Safety

/-- The block after reset under TC. -/
def tc : State := State.resetWith Params.tc

/-- The controller of a test: enabled, with the gains given. -/
def running (kp ki kd : Rat) : State := { tc with ctl := { tc.ctl with kp := kp, ki := ki, kd := kd, enabled := true } }

/-- What `f` reads after an operation that answers a next state. -/
def after {α : Type} (r : Result) (f : State → α) : Option α :=
  match r with
  | .next t => some (f t)
  | _ => none

/-! ### Well-formed operations: each check refuses an ill-formed term -/

theorem test_illformed_setDrive_high : (Instr.setDrive .h .idle 2147483648).wellFormed = false := by decide

theorem test_illformed_setDrive_low : (Instr.setDrive .v .forward (-2147483649)).wellFormed = false := by decide

theorem test_illformed_pidStep_error : (Instr.pidStep 2147483648 1).wellFormed = false := by decide

theorem test_illformed_pidStep_count : (Instr.pidStep 0 65536).wellFormed = false := by decide

theorem test_illformed_ctrlStep : (Instr.ctrlStep 65536).wellFormed = false := by decide

theorem test_illformed_setSetpoint : (Instr.setSetpoint (-2147483649)).wellFormed = false := by decide

theorem test_illformed_setMode : (Instr.setMode 16).wellFormed = false := by decide

/-! ### Decoding: words of the table "Derived vectors: encoding and decoding" -/

theorem test_decode_actuation :
    decode 0x011100000000003C = .ok (.setDrive .v .forward 60) ∧ decode 0x01020000FFFFFFFB = .ok (.setDrive .h .reverse (-5)) ∧
    decode 0x0110000000000032 = .ok (.setDrive .v .idle 50) ∧ decode 0x0200000000000000 = .ok .disableAll ∧
    decode 0x0300000000000000 = .ok .tick := by decide

theorem test_decode_sensor :
    decode 0x10000000FFFFFFFF = .ok (.sample 4294967295) ∧ decode 0x10000000000001F4 = .ok (.sample 500) := by decide

theorem test_decode_controller :
    decode 0x20000002FFFFFFF9 = .ok (.pidStep (-7) 2) ∧ decode 0x200000000000001E = .ok (.pidStep 30 0) ∧
    decode 0x2100000300000000 = .ok (.ctrlStep 3) ∧ decode 0x2200000000000064 = .ok (.setSetpoint 100) ∧
    decode 0x2310000000000000 = .ok (.setControl true) ∧ decode 0x2300000000000000 = .ok (.setControl false) ∧
    decode 0x24000000BF800000 = .ok (.setKp 0xBF800000) ∧ decode 0x250000003F000000 = .ok (.setKi 0x3F000000) ∧
    decode 0x2600000040000000 = .ok (.setKd 0x40000000) ∧ decode 0x2700000000000000 = .ok .getGains := by decide

theorem test_decode_supervisor :
    decode 0x3020000000000000 = .ok (.setMode 2) ∧ decode 0x3070000000000000 = .ok (.setMode 7) ∧
    decode 0x3150000000000000 = .ok (.supervisorStep true false true false) ∧
    decode 0x31A0000000000000 = .ok (.supervisorStep false true false true) := by decide

theorem test_decode_illegal_opcode :
    decode 0x0000000000000000 = .error .unassignedOpcode ∧ decode 0x0400000000000000 = .error .unassignedOpcode ∧
    decode 0xFFFFFFFFFFFFFFFF = .error .unassignedOpcode := by decide

theorem test_decode_illegal_range :
    decode 0x0121000000000001 = .error .axisOutOfRange ∧ decode 0x0103000000000001 = .error .directionOutOfRange ∧
    decode 0x2320000000000000 = .error .enableOutOfRange := by decide

theorem test_decode_illegal_zero :
    decode 0x0111000100000000 = .error .mustBeZero ∧ decode 0x0300000000000001 = .error .mustBeZero ∧
    decode 0x0201000000000000 = .error .mustBeZero ∧ decode 0x2010000100000000 = .error .mustBeZero ∧
    decode 0x2100000100000005 = .error .mustBeZero ∧ decode 0x2301000000000000 = .error .mustBeZero ∧
    decode 0x2400000100000000 = .error .mustBeZero ∧ decode 0x2700000000000001 = .error .mustBeZero ∧
    decode 0x3001000000000000 = .error .mustBeZero ∧ decode 0x3100000000000001 = .error .mustBeZero := by decide

/-- R85 encodings written out, the other way. -/
theorem test_encode :
    encode (.setDrive .h .forward 250) = 0x01010000000000FA ∧ encode (.pidStep (-7) 2) = 0x20000002FFFFFFF9 ∧
    encode (.ctrlStep 1) = 0x2100000100000000 ∧ encode (.supervisorStep true true true true) = 0x31F0000000000000 := by decide

theorem test_decodeTableWord :
    decodeTableWord 64 0x31A0000000000000 = some (.supervisorStep false true false true) ∧
    decodeTableWord 64 0x0400000000000000 = none := by decide

/-- The first operation after reset, whatever the parameters. -/
theorem test_first_step_tick : step (State.reset.withFetchWord 64 0x0300000000000000) = exec .tick State.reset := rfl

theorem test_first_step_setDrive :
    step (State.reset.withFetchWord 64 0x011100000000003C) = exec (.setDrive .v .forward 60) State.reset := rfl

/-! ### Assembly text (R90 to R92) -/

theorem test_assemble :
    Asm.assemble "SET_KP 15.0\nSetDrive H, REV, -5 ; comment" = some [0x2400000041700000, 0x01020000FFFFFFFB] := by decide +kernel

theorem test_assemble_pseudo :
    Asm.assemble "STOP H\nTICKS 2\nLIMIT_TRIP\nSUPERVISOR_STEP" =
      some [0x0100000000000000, 0x0300000000000000, 0x0300000000000000, 0x0200000000000000, 0x3100000000000000] := by decide +kernel

/-- 0.1 has no binary32 pattern (R90). -/
theorem test_assemble_inexact : Asm.assemble "SET_KP 0.1" = none := by decide +kernel

/-! ### The gain operand: the binary32 table of `95_test_vectors.md` -/

theorem test_binary32_finite :
    binary32 0x41700000 = .finite 15 ∧ binary32 0x3E800000 = .finite (1 / 4) ∧ binary32 0xBF800000 = .finite (-1) ∧
    binary32 0x80000000 = .finite 0 ∧ binary32 0x3DCCCCCD = .finite (13421773 / 134217728) := by decide +kernel

theorem test_binary32_special :
    binary32 0x7F800000 = .posInf ∧ binary32 0xFF800000 = .negInf ∧ binary32 0x7FC00000 = .nan := by decide +kernel

/-! ### One step of each operation -/

/-- VA2. -/
theorem test_setDrive_forward :
    after (exec (.setDrive .v .forward 60) tc) (fun t => (t.srv.v, t.out.v)) =
      some (⟨1500, 1700, 2, 4, 0, false, .forward, 60⟩, ⟨true, 1500⟩) := by decide

/-- VA8: a negative magnitude is clamped to 0. -/
theorem test_setDrive_negative :
    after (exec (.setDrive .h .reverse (-5)) tc) (fun t => t.srv.h) = some ⟨1500, 1300, 2, 10, 0, false, .reverse, 0⟩ := by decide

/-- P1, tick 4: the off phase of 4 ticks ends. -/
theorem test_tick_turns_on :
    after (exec .tick { tc with srv := { tc.srv with v := ⟨1500, 1700, 2, 4, 3, false, .forward, 60⟩ } })
      (fun t => (t.srv.v.driveActive, t.srv.v.elapsed, t.out.v.pw)) = some (true, 0, 1700) := by decide

/-- VA4, tick 17: at magnitude 0 the off count holds. -/
theorem test_tick_holds :
    after (exec .tick { tc with srv := { tc.srv with v := ⟨1500, 1700, 2, 10, 10, false, .forward, 0⟩ } })
      (fun t => (t.srv.v.driveActive, t.srv.v.elapsed, t.out.v.pw)) = some (false, 10, 1500) := by decide

/-- VA10. -/
theorem test_disableAll :
    after (exec .disableAll tc) (fun t => (t.estop, t.out.h, t.out.v, status t)) =
      some (true, ⟨false, 1500⟩, ⟨false, 1500⟩, 0x00000004) := by decide

/-- VS1. -/
theorem test_sample_first :
    after (exec (.sample 100) tc) (fun t => (t.flt, t.resp, status t)) =
      some (⟨⟨100, 100, 100⟩, 1, 100, true⟩, .filtered 100, 0x00000018) := by decide +kernel

/-- VS5, the third sample: the exact arithmetic does not overflow. And R136 taken word for word fails when the sample overwrites
one of the two copies (log 18): the window 100, 300, 100 with the cursor at the last slot, position 100, then 500. -/
theorem test_sample_later :
    after (exec (.sample 0) { tc with flt := ⟨⟨0xFFFFFFFF, 0, 0xFFFFFFFF⟩, 2, 0xFFFFFFFF, true⟩ }) (fun t => (t.flt.y, t.flt.cursor)) =
      some (3221225471, 0) ∧
    after (exec (.sample 500) { tc with flt := ⟨⟨100, 300, 100⟩, 2, 100, true⟩ }) (fun t => t.flt.y) = some 150 := by decide

/-- VC4: inside the deadzone only the derivative acts. -/
theorem test_pidStep_deadzone :
    after (exec (.pidStep 3 1) (running 15 0 2)) (fun t => (t.resp, t.ctl.integ, t.ctl.prevErr, t.motionComplete)) =
      some (.ctrl 6 .forward 6, 0, 3, true) := by decide +kernel

/-- VC8: the gravity-assisted direction, with `dt = 2`. -/
theorem test_pidStep_gravity :
    after (exec (.pidStep (-7) 2) (running 0 0 2)) (fun t => (t.resp, t.srv.v.cmdDir, t.srv.v.cmdMag)) =
      some (.ctrl (-7 / 2) .reverse 3, .reverse, 3) := by decide +kernel

/-- W7. -/
theorem test_ctrlStep_saturates :
    after (exec (.ctrlStep 1) { running 15 0 0 with
        ctl := { (running 15 0 0).ctl with setpoint := 100 }, flt := ⟨⟨70, 70, 70⟩, 1, 70, true⟩, posFresh := true })
      (fun t => (t.resp, t.srv.v.offPeriod, t.posFresh)) = some (.ctrl 60 .forward 60, 4, false) := by decide +kernel

/-- VS8: a disabled step does not consume the sample. -/
theorem test_ctrlStep_disabled :
    after (exec (.ctrlStep 1) { tc with posFresh := true }) (fun t => (t.resp, t.posFresh)) = some (.ctrlIdle, true) := by
  decide +kernel

/-- W5. -/
theorem test_setSetpoint :
    after (exec (.setSetpoint (-5)) tc) (fun t => t.ctl.setpoint) = some 50 ∧
    after (exec (.setSetpoint 1000) tc) (fun t => t.ctl.setpoint) = some 400 := by decide

/-- VC13, the disabling edge. -/
theorem test_setControl_disable :
    after (exec (.setControl false) { running 0 1 0 with ctl := { (running 0 1 0).ctl with integ := 20, prevErr := 20 } })
      (fun t => (t.srv.v, t.ctl.integ, t.ctl.prevErr, t.ctl.enabled)) =
      some (⟨1500, 1500, 2, 10, 0, false, .idle, 0⟩, 20, 20, false) := by decide +kernel

/-- VC13, the enabling edge. -/
theorem test_setControl_enable :
    after (exec (.setControl true) { tc with ctl := { tc.ctl with integ := 20, prevErr := 20 } })
      (fun t => (t.ctl.integ, t.ctl.prevErr, t.ctl.enabled)) = some (0, 0, true) := by decide +kernel

theorem test_setKp_clamps :
    after (exec (.setKp 0x44FA0000) tc) (fun t => t.ctl.kp) = some 1000 ∧
    after (exec (.setKp 0xFF800000) tc) (fun t => t.ctl.kp) = some 0 := by decide +kernel

theorem test_setKi_half : after (exec (.setKi 0x3F000000) tc) (fun t => t.ctl.ki) = some (1 / 2) := by decide +kernel

/-- VE10. -/
theorem test_setKd_nan :
    after (exec (.setKd 0x7FC00000) tc) (fun t => (t.resp, t.ctl.kd, t.err)) =
      some (.err .operand, 0, ⟨false, false, true⟩) := by decide +kernel

/-- VC14. -/
theorem test_getGains : after (exec .getGains (running 15 (1 / 2) 2)) (fun t => t.resp) = some (.gains 15 (1 / 2) 2) := by
  decide +kernel

/-- VM1: an out-of-range mode is ignored, another mode is entered. -/
theorem test_setMode :
    after (exec (.setMode 7) tc) (fun t => t.sup.mode) = some .manual ∧
    after (exec (.setMode 1) tc) (fun t => t.sup.mode) = some .calibration := by decide

/-- VM7: a mode change in a rotation leaves the horizontal drive. -/
theorem test_setMode_abandons :
    after (exec (.setMode 1) { tc with
        sup := ⟨.automatic, 0, 0, 4, 2⟩, srv := { tc.srv with h := ⟨1500, 1700, 2, 5, 0, false, .forward, 50⟩ } })
      (fun t => (t.sup, t.srv.h.cmdDir)) = some (⟨.calibration, 0, 0, 0, 0⟩, .forward) := by decide

/-- VM2. -/
theorem test_supervisorStep_manual :
    after (exec (.supervisorStep false true false true) tc) (fun t => (t.srv.h.cmdDir, t.srv.v)) =
      some (.idle, ⟨1500, 1700, 2, 4, 0, false, .forward, 60⟩) := by decide +kernel

/-- P5, word 11: the last ROTATING step. -/
theorem test_supervisorStep_rotating :
    after (exec (.supervisorStep false false false false) { tc with
        sup := ⟨.automatic, 0, 0, 4, 1⟩, srv := { tc.srv with h := ⟨1500, 1700, 2, 5, 0, false, .forward, 50⟩ } })
      (fun t => (t.sup, t.srv.h)) =
      some (⟨.automatic, 0, 0, 5, 0⟩, ⟨1500, 1500, 2, 10, 0, false, .idle, 0⟩) := by decide +kernel

/-- VE2: an illegal word writes its sticky bit and nothing else. -/
theorem test_illegal_word :
    step { tc with port := [0x011100010000003C] } =
      .next { tc with err := ⟨true, false, false⟩, resp := .err .illegal } := rfl

/-! ### Witnesses: a concrete state and operands that meet a statement's hypotheses -/

/-- A step of a supervisor that reads no button. -/
def look : Instr := .supervisorStep false false false false

/-- The Automatic mode at a sub-state, with a rotation count. -/
def auto (k : Fin 21) (count : U32) : State := { tc with sup := ⟨.automatic, 0, 0, k, count⟩ }

/-- The Calibration mode at a sub-state. -/
def cal (k : Fin 9) : State := { tc with sup := ⟨.calibration, 0, k, 0, 0⟩ }

/-- A primed filter: the window 100, 100, 500 with the cursor at slot 2, at the position given. -/
def primedAt (y : U32) : State := { tc with flt := ⟨⟨100, 100, 500⟩, 2, y, true⟩ }

theorem tc_inv : Inv tc where
  cfg := Params.tc_valid
  bank := fun a => by cases a <;> constructor <;> decide
  width := fun a => ⟨.idle, by cases a <;> rfl⟩
  enable := fun a => by cases a <;> rfl
  ctl :=
    { integ_ge := Params.tc_valid.iMin_le, integ_le := Params.tc_valid.le_iMax, setpoint_ge := by decide, setpoint_le := by decide
      gain_ge := fun g => by cases g <;> decide +kernel, gain_le := fun g => by cases g <;> decide +kernel }
  sup := { sub_man := rfl, sub_cal := fun _ => rfl, sub_auto := fun _ => rfl, rot_count := by decide }
  fresh := fun h => by revert h; decide

/-- The block with its vertical axis in an on phase at magnitude 60, as after P1, tick 4. -/
def pulsing : State := { tc with srv := { tc.srv with v := ⟨1500, 1700, 2, 4, 0, true, .forward, 60⟩ } }

theorem pulsing_inv : Inv pulsing where
  cfg := Params.tc_valid
  bank := fun a => by cases a <;> constructor <;> decide
  width := tc_inv.width
  enable := tc_inv.enable
  ctl := tc_inv.ctl
  sup := tc_inv.sup
  fresh := tc_inv.fresh

theorem witness_DecodeOfEncode :
    (Instr.setDrive .v .reverse (-2147483648)).wellFormed = true ∧ (Instr.setDrive .h .idle 2147483647).wellFormed = true ∧
    (Instr.pidStep (-2147483648) 65535).wellFormed = true ∧ (Instr.ctrlStep 0).wellFormed = true ∧
    (Instr.setSetpoint 2147483647).wellFormed = true ∧ (Instr.setMode 15).wellFormed = true := by decide

theorem witness_EncodeOfDecode :
    decode 0x20000002FFFFFFF9 = .ok (.pidStep (-7) 2) ∧ decode 0x30F0000000000000 = .ok (.setMode 15) := by decide

theorem witness_IllegalWordsRaise :
    { tc with port := [0x0121000000000001] }.port = 0x0121000000000001 :: [] ∧ illegal 0x0121000000000001 ∧
    illegal 0x0000000000000000 ∧ illegal 0x2301000000000000 ∧ ¬ illegal 0x0112000000000001 := by
  refine ⟨rfl, .inr ⟨.setDrive, by decide, .inr (.inl ⟨rfl, .inl (by decide)⟩)⟩, .inl (fun op => by cases op <;> decide),
    .inr ⟨.setControl, by decide, .inl (show bits _ 51 0 ≠ 0 by decide)⟩, ?_⟩
  rintro (h | ⟨op, h, h'⟩)
  · exact h .setDrive (by decide)
  · revert h'; cases op <;> first | exact absurd h (by decide) | (simp only [reservedBitSet]; decide)

theorem witness_Binary32Exact :
    expField 0x007FFFFF = 0 ∧ expField 0x00800000 = 1 ∧ expField 0x7F7FFFFF = 254 ∧ expField 0x7F800000 = 255 ∧
    fracField 0x7F800000 = 0 ∧ expField 0x7FC00000 = 255 ∧ fracField 0x7FC00000 ≠ 0 ∧ expField 0x80000000 = 0 ∧
    fracField 0x80000000 = 0 := by decide

theorem witness_GainLiteralsExact :
    (10 : Nat) ≠ 0 ∧ Asm.patternOf false 5 10 = some 0x3F000000 ∧ Asm.patternOf false 1 10 = none := by decide +kernel

theorem witness_StepRunsDecoded :
    { tc with port := [0x0300000000000000] }.port = 0x0300000000000000 :: [] ∧ decode 0x0300000000000000 = .ok .tick ∧
    (Instr.setMode 15).wellFormed = true := by decide

theorem witness_OneWordPerStep :
    step { tc with port := [0x0200000000000000, 1] } = .next (respond .none (disableAll { tc with port := [1] })) ∧ tc.port = [] :=
  ⟨rfl, rfl⟩

theorem witness_ParametersFixed :
    Sys2Proof.core.run 1 { tc with port := [0x0200000000000000] } = .next (respond .none (disableAll tc)) ∧
    step { tc with port := [0x0200000000000000] } = .next (respond .none (disableAll tc)) ∧
    errorFree (respond .none (disableAll tc)) = true := ⟨rfl, rfl, rfl⟩

theorem witness_InterleavingKeepsStreams : Interleaving [[1, 2], [3]] [3, 1, 2] :=
  .cons [[1, 2]] [] 3 [] [1, 2] (.cons [] [[]] 1 [2] [2] (.cons [] [[]] 2 [] [] (.nil _ (by simp))))

theorem witness_StepKeepsInv : Inv tc ∧ step tc = .next tc := ⟨tc_inv, rfl⟩

theorem witness_InvGivesStatedRanges : Inv pulsing := pulsing_inv

theorem witness_IdleWidthConstant : step (tc.withFetchWord 64 0x0200000000000000) = .next (respond .none (disableAll tc)) := rfl

/-- A run with every bit set, and one that R243 leaves inside the claims. -/
theorem witness_ErrorBitsSticky :
    Sys2Proof.core.run 1 { tc with port := [0], err := ⟨true, true, true⟩ } =
      .next { tc with err := ⟨true, true, true⟩, resp := .err .illegal } ∧
    Sys2Proof.core.run 1 { tc with port := [0x0200000000000000] } = .next (respond .none (disableAll tc)) ∧
    errorFree (respond .none (disableAll tc)) = true := ⟨rfl, rfl, rfl⟩

/-- The stop takes hold one tick late, and that tick still counts (C6, D23). -/
theorem test_late_stop_counts_one_tick : ((lateStop tc).servo .h).elapsed = 1 ∧ (lateStop tc).estop = true := ⟨by decide, rfl⟩

/-- The one further tick may come after another operation, here a `GET_GAINS` (log 6). -/
theorem test_late_stop_after_operation (s : State)
    (h : s.port = [0x0200000000000000, 0x2700000000000000, 0x0300000000000000]) :
    RelaxedStep s (respond .none (lateStop (respond (.gains s.ctl.kp s.ctl.ki s.ctl.kd) { s with port := [] }))) := by
  have hf : ([0x2700000000000000].filter fun x => !decodesTo .disableAll x) = [(0x2700000000000000 : CmdWord)] := by decide +kernel
  have hb : ∀ x ∈ [(0x2700000000000000 : CmdWord)], decodesTo .tick x = false := by
    intro x hx; obtain rfl := List.mem_singleton.1 hx; decide +kernel
  have hg : decode 0x2700000000000000 = .ok .getGains := rfl
  refine .late s _ 0x0200000000000000 0x0300000000000000 [0x2700000000000000] [] h (by decide +kernel) (by decide +kernel) hb ?_
  simp only [hf, List.append_nil, List.length_singleton, Host.Core.run, core, step, fetch, hg]
  rfl

/-- The stop, and a run of one step after it, at a `DISABLE_ALL` again. -/
theorem witness_NoPulseAfterStop :
    exec .disableAll { tc with port := [0x0200000000000000] } =
      .next (respond .none (disableAll { tc with port := [0x0200000000000000] })) ∧
    (disableAll tc).estop = true ∧ (∀ a, ((disableAll tc).channel a).emitted = none) ∧ step (disableAll tc) = .next (disableAll tc) ∧
    Sys2Proof.core.run 1 (respond .none (disableAll { tc with port := [0x0200000000000000] })) =
      .next (respond .none (disableAll tc)) ∧
    errorFree (respond .none (disableAll tc)) = true := ⟨rfl, rfl, fun a => by cases a <;> rfl, rfl, rfl, rfl⟩

/-- Parameters that meet R7; also for SetDriveResult, LowpassExact, SetSetpointResult, ManualStepResult and every other
statement with `Params.Valid`. -/
theorem witness_valid_parameters : tc.cfg.Valid ∧ ∃ c : Params, c.Valid := ⟨Params.tc_valid, _, Params.tc_valid⟩

theorem witness_OffTicksFloor : (0 : Nat) ≤ 100 ∧ (100 : Nat) ≤ 100 ∧ (0 : Nat) ≤ 1 := by decide

theorem witness_TickResult : tc.estop = false := rfl

theorem witness_TickFrozen : (disableAll tc).estop = true ∧ Inv (disableAll tc) :=
  ⟨rfl, tc_inv.cfg, tc_inv.bank, fun a => ⟨.idle, by cases a <;> rfl⟩, fun a => by cases a <;> rfl, tc_inv.ctl, tc_inv.sup, tc_inv.fresh⟩

theorem witness_OutputsWrittenByTickOnly :
    exec .disableAll tc = .next (respond .none (disableAll tc)) ∧ Instr.disableAll ≠ .tick ∧
    exec .tick tc = .next (respond .none (tick tc)) ∧ Instr.tick ≠ .disableAll := ⟨rfl, by decide, rfl, by decide⟩

theorem witness_AxesIndependent :
    sameAxis .h tc pulsing ∧ exec .tick tc = .next (respond .none (tick tc)) ∧
    exec .tick pulsing = .next (respond .none (tick pulsing)) ∧ Axis.v ≠ Axis.h ∧
    exec (.setDrive .v .forward 60) tc = .next (respond .none (applyDrive .v .forward 60 tc)) :=
  ⟨⟨rfl, rfl, rfl, rfl⟩, rfl, rfl, by decide, rfl⟩

/-- Magnitudes 100, 0 and 1 with the runs the clauses speak of, one of them with other operations between the ticks. -/
theorem witness_DutyCycle :
    Inv pulsing ∧ pulsing.estop = false ∧
    undisturbed .v [.tick, .setDrive .h .forward 5, .tick] (applyDrive .v .forward 100 pulsing) = true ∧
    errorFreeOps [.tick, .setDrive .h .forward 5, .tick] (applyDrive .v .forward 100 pulsing) = true ∧
    0 + 2 ≤ (ticksSeen .v [.tick, .setDrive .h .forward 5, .tick] (applyDrive .v .forward 100 pulsing)).length ∧
    undisturbed .v [.tick, .tick] (applyDrive .v .idle 0 pulsing) = true ∧
    errorFreeOps [.tick, .tick] (applyDrive .v .idle 0 pulsing) = true ∧
    (ticksSeen .v [.tick, .tick] (applyDrive .v .idle 0 pulsing)).drop (pulsing.cfg.onTicks - 1) = [(false, 1500)] ∧
    undisturbed .v (List.replicate 12 .tick) (applyDrive .v .reverse 1 pulsing) = true ∧
    errorFreeOps (List.replicate 12 .tick) (applyDrive .v .reverse 1 pulsing) = true ∧
    1 + 11 ≤ (ticksSeen .v (List.replicate 12 .tick) (applyDrive .v .reverse 1 pulsing)).length :=
  ⟨pulsing_inv, rfl, by decide +kernel⟩

theorem witness_MagnitudeZeroIsIdle :
    (Inv pulsing ∧ errorFree pulsing = true ∧ pulsing.estop = false ∧ (pulsing.servo .v).driveActive = true ∧
      pulsing.cfg.onTicks ≤ (pulsing.servo .v).elapsed.toNat + 2) ∧
    (Inv tc ∧ errorFree tc = true ∧ tc.estop = false ∧ (tc.servo .v).driveActive = false ∧ 1 ≤ 1) :=
  ⟨⟨pulsing_inv, rfl, rfl, rfl, by decide⟩, tc_inv, rfl, rfl, rfl, by decide⟩

theorem witness_FirstSampleSeeds : tc.flt.primed = false := rfl

theorem witness_LaterSampleFilters : (primedAt 100).cfg.Valid ∧ (primedAt 100).flt.primed = true := ⟨Params.tc_valid, rfl⟩

theorem witness_MedianIsMiddle : (0 : Nat) ≤ 0 ∧ (0 : Nat) ≤ 4294967295 := by decide

/-- TC with `ALPHA = SCALE`. -/
def passThrough : Params := { Params.tc with alpha := 4 }

theorem witness_LowpassExact :
    Params.tc.Valid ∧ (0 : Nat) < 2 ^ 32 ∧ 4294967295 < 2 ^ 32 ∧ passThrough.Valid ∧ passThrough.alpha = passThrough.scale :=
  ⟨Params.tc_valid, by decide, by decide, { Params.tc_valid with alpha_pos := by decide, alpha_le := by decide }, rfl⟩

theorem witness_SpikeRejected :
    (primedAt 100).cfg.Valid ∧ (primedAt 100).flt.primed = true ∧
    (∀ j, j ≠ (primedAt 100).flt.cursor → (primedAt 100).flt.win.get j = 100) ∧ (primedAt 100).flt.y = 100 :=
  ⟨Params.tc_valid, rfl, by decide, rfl⟩

theorem witness_ConstantInputConverges :
    (primedAt 200).cfg.Valid ∧ errorFree (primedAt 200) = true ∧ errorFree (primedAt 50) = true ∧
    100 ≤ positionAfter (primedAt 200) 100 1 ∧ positionAfter (primedAt 50) 100 1 ≤ 100 :=
  ⟨Params.tc_valid, rfl, rfl, by decide, by decide⟩

theorem witness_UnprimedFilterUnread :
    sameButFilter tc { tc with flt := { tc.flt with y := 7, cursor := 2 } } ∧ step tc = .next tc ∧
    step { tc with flt := { tc.flt with y := 7, cursor := 2 } } = .next { tc with flt := { tc.flt with y := 7, cursor := 2 } } :=
  ⟨⟨rfl, rfl, rfl, rfl⟩, rfl, rfl⟩

theorem witness_PidStepResult : (running 15 0 0).cfg.Valid ∧ (1 : Nat) ≠ 0 ∧ (running 15 0 0).ctl.enabled = true :=
  ⟨Params.tc_valid, by decide, rfl⟩

theorem witness_CtrlStepResult :
    (running 15 0 0).cfg.Valid ∧ (65535 : Nat) ≠ 0 ∧ { running 15 0 0 with posFresh := true }.ctl.enabled = true ∧
    { running 15 0 0 with posFresh := true }.posFresh = true := ⟨Params.tc_valid, by decide, rfl, rfl⟩

theorem witness_ControllerIdle : (1 : Nat) ≠ 0 ∧ tc.ctl.enabled = false ∧ (running 15 0 0).posFresh = false := by
  exact ⟨by decide, rfl, rfl⟩

theorem witness_PidDeterministic :
    (running 15 0 0).cfg = (running 15 0 0).cfg ∧ (running 15 0 0).ctl.enabled = true ∧ (1 : Nat) ≠ 0 ∧
    exec (.pidStep 3 1) (running 15 0 0) =
      .next (respond (pidResponse 3 (dtOf Params.tc 1) (running 15 0 0)) (pid 3 (dtOf Params.tc 1) (running 15 0 0))) :=
  ⟨rfl, rfl, by decide, rfl⟩

theorem witness_AntiWindupBound :
    tc.cfg.Valid ∧ tc.cfg.iMin ≤ tc.ctl.integ ∧ tc.ctl.integ ≤ tc.cfg.iMax ∧
    runOps ([((60 : Int), (1 : Nat))].map fun x => .pidStep x.1 x.2) tc = some (respond .ctrlIdle tc) ∧
    errorFree (respond .ctrlIdle tc) = true :=
  ⟨Params.tc_valid, Params.tc_valid.iMin_le, Params.tc_valid.le_iMax, rfl, rfl⟩

/-- The largest error inside the deadzone of TC. -/
theorem witness_DeadzoneStep :
    Inv { tc with ctl := { tc.ctl with enabled := true } } ∧ (1 : Nat) ≠ 0 ∧ |(-4 : Int)| < (tc.cfg.deadzone : Int) :=
  ⟨⟨tc_inv.cfg, tc_inv.bank, tc_inv.width, tc_inv.enable,
      ⟨tc_inv.ctl.integ_ge, tc_inv.ctl.integ_le, tc_inv.ctl.setpoint_ge, tc_inv.ctl.setpoint_le,
        fun g => by cases g <;> decide +kernel, fun g => by cases g <;> decide +kernel⟩,
      tc_inv.sup, tc_inv.fresh⟩, by decide, by decide⟩

theorem witness_MotionCompleteWrites :
    after (exec (.pidStep 4 1) (running 0 0 0)) (fun t => t.motionComplete) = some true ∧ (running 0 0 0).motionComplete = false ∧
    after (exec look { cal 1 with motionComplete := true }) (fun t => t.motionComplete) = some false := by decide +kernel

theorem witness_SetControlResult : tc.ctl.enabled = false ∧ (running 0 0 0).ctl.enabled = true ∧ (running 0 0 0).cfg.Valid :=
  ⟨rfl, rfl, Params.tc_valid⟩

theorem witness_GainWriteResult :
    binary32 0x7FC00000 = .nan ∧ binary32 0x7F800000 = .posInf ∧ binary32 0xFF800000 = .negInf ∧
    binary32 0x80000000 = .finite 0 := by decide +kernel

theorem witness_SetModeResult :
    (3 ≤ 3 ∨ modeOf 3 = some tc.sup.mode) ∧ modeOf 0 = some tc.sup.mode ∧ modeOf 2 = some .automatic ∧ .automatic ≠ tc.sup.mode := by
  decide

theorem witness_ManualStepResult : tc.cfg.Valid ∧ tc.sup.mode = .manual := ⟨Params.tc_valid, rfl⟩

/-- One state for each kind of sub-state, and for both branches of WAIT and of ROTATING. -/
theorem witness_SubStateResult :
    tc.cfg.Valid ∧ currentSub (cal 0) = some .enable ∧ currentSub (auto 19 0) = some .disable ∧
    currentSub (cal 3) = some (.move 300) ∧ currentSub (cal 2) = some .wait ∧ (cal 2).motionComplete = false ∧
    { cal 2 with motionComplete := true }.motionComplete = true ∧ currentSub (auto 15 0) = some (.rotStart 3) ∧
    currentSub (auto 4 1) = some .rotating ∧ (auto 4 1).sup.rotCount.toNat ≤ 1 ∧ 1 < (auto 4 2).sup.rotCount.toNat ∧
    currentSub (auto 20 0) = some .idle := ⟨Params.tc_valid, by decide⟩

theorem witness_RotationLasts :
    (auto 3 0).cfg.Valid ∧ errorFree (auto 3 0) = true ∧ currentSub (auto 3 0) = some (.rotStart 0) ∧ 0 ≤ (auto 3 0).cfg.rotSteps.get 0 ∧
    3 ≤ (auto 3 0).cfg.rotSteps.get 0 := ⟨Params.tc_valid, by decide⟩

theorem witness_CounterAdvancesByOne :
    after (exec look (auto 19 0)) (fun t => t.sup.subAuto) = some 20 ∧ after (exec look (cal 8)) (fun t => t.sup.subCal) = some 8 ∧
    after (exec (.setMode 0) (auto 19 0)) (fun t => t.sup.mode) = some .manual := by decide

/-- The MOVE at sub-state 3 of Calibration, a zero error, and the WAIT that then advances. -/
theorem witness_WaitNeedsFreshCompletion :
    currentSub (cal 3) = some (.move 300) ∧
    after (exec look { cal 3 with ctl := (running 0 0 0).ctl })
        (fun t => (runOps [look, .setMode 1, .pidStep 0 1, look] t).map fun u => (u.sup.subCal, errorFree u)) =
      some (some (5, true)) ∧
    ∀ n m, .setMode n ∈ [look, .setMode 1, .pidStep 0 1, look] → modeOf n = some m → m = (cal 3).sup.mode :=
  ⟨by decide, by decide +kernel, fun n m h => by simp [look] at h; subst h; simp [modeOf, cal]; exact Eq.symm⟩

theorem witness_ProgramStepCounts :
    (cal 0).cfg.Valid ∧ errorFree (cal 0) = true ∧ errorFree (auto 0 0) = true ∧ (cal 0).sup.mode = .calibration ∧ (cal 0).sup.subCal = 0 ∧ (auto 0 0).sup.mode = .automatic ∧
    (auto 0 0).sup.subAuto = 0 := ⟨Params.tc_valid, by decide⟩

theorem witness_ModeChangeRestarts :
    modeOf 1 = some .calibration ∧ .calibration ≠ (auto 14 0).sup.mode ∧ modeOf 2 = some (auto 14 0).sup.mode ∧
    errorFree (auto 14 0) = true := by decide

theorem witness_ErrorsAndTheirCauses :
    exec (.ctrlStep 0) tc = .next (raise .dtZero tc) ∧ exec .tick tc = .next (respond .none (tick tc)) ∧
    after (exec (.setKp 0x7FC00000) tc) (fun t => t.err.operand) = some true := ⟨rfl, rfl, by decide +kernel⟩

theorem witness_ResponsesByOperation :
    exec .disableAll tc = .next (respond .none (disableAll tc)) ∧ ∀ e, (respond .none (disableAll tc)).resp ≠ .err e :=
  ⟨rfl, fun e => by simp [respond]⟩

/-- A `SET_DRIVE` without a tick inside and with one. -/
theorem witness_TornTickAdmitsBothOrders :
    Inv pulsing ∧ exec (.setDrive .v .reverse 30) pulsing = .next (respond .none (applyDrive .v .reverse 30 pulsing)) ∧
    TornDrives (driveCommands (.setDrive .v .reverse 30) pulsing) 0 pulsing (applyDrive .v .reverse 30 pulsing) ∧
    TornDrives (driveCommands (.setDrive .v .reverse 30) pulsing) 1 pulsing
      (applyDrive .v .reverse 30 (tornTick ⟨true, false, false⟩ ⟨.v, .reverse, 30⟩ pulsing)) :=
  ⟨pulsing_inv, rfl, .apply _ _ _ _ _ (.done _), .tick _ _ _ _ _ _ (.apply _ _ _ _ _ (.done _))⟩

/-- A Manual step with control enabled applies two commands to V, and a tick inside the second one can see the first one's Idle
values, magnitude 0 and off period FRAME_TICKS (R70, R194, log 17). -/
theorem test_torn_manual_sees_idle :
    driveCommands (.supervisorStep false true false true) (running 0 0 0) =
      [⟨.v, .idle, 0⟩, ⟨.h, .idle, 0⟩, ⟨.v, .forward, 60⟩] ∧
    (let s := applyDrive .h .idle 0 (applyDrive .v .idle 0 (applyDrive .v .forward 100 (running 0 0 0)))
     let b := (DriveCommand.halfApplied ⟨true, false, false⟩ ⟨.v, .forward, 60⟩ s).servo .v
     b.cmdMag = 0 ∧ b.offPeriod = 10 ∧ b.activePw = 1700) := by decide +kernel

end Sys2Proof.Tests
end

namespace Sys2Proof.Machine

/-! ### The idle width of a bank (R24)

A drive command and a tick are the only writers of the banks, and neither writes `idle_pw`. -/

@[simp] theorem Servo.driven_idlePw (b : Servo) (c : Params) (a : Axis) (dir : Dir) (mag : Int) :
    (b.driven c a dir mag).idlePw = b.idlePw := rfl

@[simp] theorem Servo.tickOn_idlePw (b : Servo) : b.tickOn.idlePw = b.idlePw := by
  unfold Servo.tickOn; split <;> rfl

@[simp] theorem Servo.tickOff_idlePw (b : Servo) : b.tickOff.idlePw = b.idlePw := by
  unfold Servo.tickOff; split
  · split <;> rfl
  · rfl

@[simp] theorem Servo.ticked_idlePw (b : Servo) : b.ticked.idlePw = b.idlePw := by
  unfold Servo.ticked; split
  · exact b.tickOn_idlePw
  · exact b.tickOff_idlePw

theorem applyDrive_idlePw (s : State) (a a' : Axis) (dir : Dir) (mag : Int) :
    ((applyDrive a dir mag s).servo a').idlePw = (s.servo a').idlePw := by
  by_cases h : a' = a
  · subst h; simp
  · rw [servo_applyDrive_ne s dir mag h]

theorem applyAll_idlePw (ds : List DriveCommand) (s : State) (a : Axis) :
    ((applyAll ds s).servo a).idlePw = (s.servo a).idlePw := by
  induction ds generalizing s with
  | nil => rfl
  | cons d ds ih =>
    calc ((applyAll (d :: ds) s).servo a).idlePw
        = ((d.apply s).servo a).idlePw := ih (d.apply s)
      _ = (s.servo a).idlePw := applyDrive_idlePw s d.axis a d.dir d.mag

theorem tick_idlePw (s : State) (a : Axis) : ((tick s).servo a).idlePw = (s.servo a).idlePw := by
  cases h : s.estop with
  | true => rw [tick_stopped h]
  | false =>
    rw [tick_running h]
    cases a
    · exact s.srv.h.ticked_idlePw
    · exact s.srv.v.ticked_idlePw

/-- No operation writes an idle width (R24). -/
theorem exec_idlePw {i : Instr} {s t : State} (h : exec i s = .next t) (a : Axis) :
    (t.servo a).idlePw = (s.servo a).idlePw := by
  by_cases htick : i = .tick
  · subst htick; cases h; exact tick_idlePw s a
  by_cases hstop : i = .disableAll
  · subst hstop; cases h; rfl
  obtain ⟨hsrv, -⟩ := exec_drives h htick hstop
  calc (t.servo a).idlePw
      = ((applyAll (driveCommands i s) s).servo a).idlePw := by simp only [State.servo, hsrv]
    _ = (s.servo a).idlePw := applyAll_idlePw _ s a

/-- No step writes an idle width, whatever word it takes (R24). -/
theorem step_idlePw {s t : State} (h : step s = .next t) (a : Axis) : (t.servo a).idlePw = (s.servo a).idlePw := by
  obtain ⟨-, hstep⟩ | ⟨w, rest, i, -, -, hstep⟩ | ⟨w, rest, why, -, -, hstep⟩ := step_cases s
  · cases hstep.symm.trans h; rfl
  · exact exec_idlePw (hstep.symm.trans h) a
  · cases hstep.symm.trans h; rfl

theorem resetWith_idlePw (c : Params) (a : Axis) : ((State.resetWith c).servo a).idlePw = c.pwIdle.get a := by
  cases a <;> rfl

/-- Settles O17: the reset value, and the case split of a step over its operations. -/
theorem idleWidthConstant : Obligations.IdleWidthConstant :=
  ⟨resetWith_idlePw Config.deployed.params, fun _ _ a h => step_idlePw h a⟩

/-! ### The STATUS view (R39) -/

/-- Dropping the last bit of a word takes one power of two off a division. -/
theorem toNat_concat_div_two_pow {n : Nat} (x : BitVec n) (b : Bool) (k : Nat) :
    (x.concat b).toNat / 2 ^ (k + 1) = x.toNat / 2 ^ k := by
  have hlast : (x.concat b).toNat / 2 = x.toNat := by
    have hb := b.toNat_lt
    rw [BitVec.toNat_concat]; omega
  rw [Nat.pow_succ', ← Nat.div_div_eq_div_mul, hlast]

/-- STATUS is the mode with the eight flags appended bit by bit, `motion_complete` last (R39). -/
theorem status_eq_concat (s : State) :
    status s =
      (((((((((0 : BitVec 22) ++ modeCode s.sup.mode).concat s.err.operand).concat s.err.dt).concat s.err.illegal).concat
        s.posFresh).concat s.flt.primed).concat s.estop).concat s.ctl.enabled).concat s.motionComplete := rfl

/-- STATUS without its byte of flags is the code of the mode, bits 31:10 zero (R39). -/
theorem status_toNat_div (s : State) : (status s).toNat / 2 ^ 8 = (modeCode s.sup.mode).toNat := by
  rw [status_eq_concat]
  simp only [toNat_concat_div_two_pow]
  rw [BitVec.toNat_append]
  simp

theorem status_reset (c : Params) : status (State.resetWith c) = 0 := by
  simp [status, State.resetWith, modeCode]

/-- Settles O20: STATUS read off its appended flags. -/
theorem statusBits : Obligations.StatusBits := by
  refine ⟨fun s => ⟨?_, ?_, ?_, ?_, ?_, ?_, ?_, ?_, ?mode⟩, status_reset _⟩
  case mode => rw [status_toNat_div]; cases s.sup.mode <;> rfl
  all_goals simp [status_eq_concat]

end Sys2Proof.Machine

namespace Sys2Proof

open Sys2Proof.Machine Sys2Proof.Claims

/-! ### The fields of a word as bit ranges (R80, R81)

The rules write a field as `w[hi:lo]`, the decoder as a bit vector. The two agree, and a range of several fields is zero exactly
when each of them is. -/

theorem toNat_opc (w : CmdWord) : (fieldsOf w).opc.toNat = bits w 63 56 := by
  simp [fieldsOf, bits, Nat.shiftRight_eq_div_pow]

theorem toNat_fa (w : CmdWord) : (fieldsOf w).fa.toNat = bits w 55 52 := by
  simp [fieldsOf, bits, Nat.shiftRight_eq_div_pow]

theorem toNat_fb (w : CmdWord) : (fieldsOf w).fb.toNat = bits w 51 48 := by
  simp [fieldsOf, bits, Nat.shiftRight_eq_div_pow]

theorem toNat_h16 (w : CmdWord) : (fieldsOf w).h16.toNat = bits w 47 32 := by
  simp [fieldsOf, bits, Nat.shiftRight_eq_div_pow]

theorem toNat_imm (w : CmdWord) : (fieldsOf w).imm.toNat = bits w 31 0 := by
  simp [fieldsOf, bits]

theorem bits_opc_eq_byte_iff (w : CmdWord) (op : Opcode) :
    bits w 63 56 = op.byte.toNat ↔ (fieldsOf w).opc = op.byte := by
  rw [← toNat_opc, BitVec.toNat_inj]

theorem bits_h16_eq_zero_iff (w : CmdWord) : bits w 47 32 = 0 ↔ (fieldsOf w).h16 = 0 := by
  rw [← toNat_h16, ← BitVec.toNat_inj]; rfl

theorem bits_imm_eq_zero_iff (w : CmdWord) : bits w 31 0 = 0 ↔ (fieldsOf w).imm = 0 := by
  rw [← toNat_imm, ← BitVec.toNat_inj]; rfl

theorem bits_fa_fb_eq_zero_iff (w : CmdWord) : bits w 55 48 = 0 ↔ (fieldsOf w).fa = 0 ∧ (fieldsOf w).fb = 0 := by
  simp only [BitVec.ofNat_eq_ofNat, ← BitVec.toNat_inj, BitVec.toNat_ofNat, toNat_fa, toNat_fb, bits]
  omega

theorem bits_fa_to_h16_eq_zero_iff (w : CmdWord) :
    bits w 55 32 = 0 ↔ (fieldsOf w).fa = 0 ∧ (fieldsOf w).fb = 0 ∧ (fieldsOf w).h16 = 0 := by
  simp only [BitVec.ofNat_eq_ofNat, ← BitVec.toNat_inj, BitVec.toNat_ofNat, toNat_fa, toNat_fb, toNat_h16, bits]
  omega

theorem bits_fb_to_imm_eq_zero_iff (w : CmdWord) :
    bits w 51 0 = 0 ↔ (fieldsOf w).fb = 0 ∧ (fieldsOf w).h16 = 0 ∧ (fieldsOf w).imm = 0 := by
  simp only [BitVec.ofNat_eq_ofNat, ← BitVec.toNat_inj, BitVec.toNat_ofNat, toNat_fb, toNat_h16, toNat_imm, bits]
  omega

theorem bits_fa_to_imm_eq_zero_iff (w : CmdWord) :
    bits w 55 0 = 0 ↔ (fieldsOf w).fa = 0 ∧ (fieldsOf w).fb = 0 ∧ (fieldsOf w).h16 = 0 ∧ (fieldsOf w).imm = 0 := by
  simp only [BitVec.ofNat_eq_ofNat, ← BitVec.toNat_inj, BitVec.toNat_ofNat, toNat_fa, toNat_fb, toNat_h16, toNat_imm, bits]
  omega

/-- The fields that R85 marks 0 for the operation are all zero. -/
def Opcode.reservedZero : Opcode → Fields → Prop
  | .setDrive, f => f.h16 = 0
  | .disableAll, f | .tick, f | .getGains, f => f.fa = 0 ∧ f.fb = 0 ∧ f.h16 = 0 ∧ f.imm = 0
  | .sample, f | .setSetpoint, f | .setKp, f | .setKi, f | .setKd, f => f.fa = 0 ∧ f.fb = 0 ∧ f.h16 = 0
  | .pidStep, f => f.fa = 0 ∧ f.fb = 0
  | .ctrlStep, f => f.fa = 0 ∧ f.fb = 0 ∧ f.imm = 0
  | .setControl, f | .setMode, f | .supervisorStep, f => f.fb = 0 ∧ f.h16 = 0 ∧ f.imm = 0

theorem reservedBitSet_iff (op : Opcode) (w : CmdWord) : reservedBitSet op w ↔ ¬ op.reservedZero (fieldsOf w) := by
  cases op <;> simp only [reservedBitSet, Opcode.reservedZero, ne_eq, bits_h16_eq_zero_iff, bits_imm_eq_zero_iff,
    bits_fa_fb_eq_zero_iff, bits_fa_to_h16_eq_zero_iff, bits_fb_to_imm_eq_zero_iff, bits_fa_to_imm_eq_zero_iff]
  case ctrlStep => tauto

/-- A word selects the row its OPC names when the row's reserved fields are zero (R85). -/
theorem Opcode.masked_eq_pattern_iff (op : Opcode) (w : CmdWord) :
    w &&& op.mask = op.pattern ↔ bits w 63 56 = op.byte.toNat ∧ op.reservedZero (fieldsOf w) := by
  have and_ones8 (x : BitVec 8) : x &&& 255#8 = x := BitVec.and_allOnes
  have and_ones4 (x : BitVec 4) : x &&& 15#4 = x := BitVec.and_allOnes
  have and_ones16 (x : BitVec 16) : x &&& 65535#16 = x := BitVec.and_allOnes
  have and_ones32 (x : BitVec 32) : x &&& 4294967295#32 = x := BitVec.and_allOnes
  rw [← Opcode.selectedBy_iff, Opcode.selectedBy_iff_fields, bits_opc_eq_byte_iff]
  cases op <;> simp [Fields.and, Opcode.reservedZero, and_ones8, and_ones4, and_ones16, and_ones32]

/-! ### When the decoder answers an operation (R89) -/

@[simp] theorem requireZero_eq_ok_iff {zero : Bool} {r : Except DecodeError Instr} {i : Instr} :
    requireZero zero r = .ok i ↔ zero = true ∧ r = .ok i := by
  cases zero <;> simp [requireZero]

theorem Axis.exists_ofField_iff (b : BitVec 4) : (∃ a, Axis.ofField b = some a) ↔ b.toNat < 2 := by
  unfold Axis.ofField
  split <;> simp_all
  omega

theorem Dir.exists_ofField_iff (b : BitVec 4) : (∃ d, Dir.ofField b = some d) ↔ b.toNat < 3 := by
  unfold Dir.ofField
  split <;> simp_all
  omega

theorem exists_enableOfField_iff (b : BitVec 4) : (∃ en, enableOfField b = some en) ↔ b.toNat < 2 := by
  unfold enableOfField
  split <;> simp_all
  omega

theorem decodeSetDrive_eq_ok_iff {f : Fields} {i : Instr} :
    decodeSetDrive f = .ok i ↔
      ∃ a d, Axis.ofField f.fa = some a ∧ Dir.ofField f.fb = some d ∧ .setDrive a d f.imm.toInt = i := by
  unfold decodeSetDrive
  split <;> simp_all

theorem decodeSetControl_eq_ok_iff {f : Fields} {i : Instr} :
    decodeSetControl f = .ok i ↔ ∃ en, enableOfField f.fa = some en ∧ .setControl en = i := by
  unfold decodeSetControl
  split <;> simp_all

/-- `SET_DRIVE` decodes when both its fields name a value (R86 case (c)). -/
theorem exists_decodeSetDrive_iff (f : Fields) : (∃ i, decodeSetDrive f = .ok i) ↔ f.fa.toNat < 2 ∧ f.fb.toNat < 3 := by
  rw [← Axis.exists_ofField_iff, ← Dir.exists_ofField_iff]
  constructor
  · rintro ⟨i, hi⟩
    obtain ⟨a, d, ha, hd, -⟩ := decodeSetDrive_eq_ok_iff.mp hi
    exact ⟨⟨a, ha⟩, d, hd⟩
  · rintro ⟨⟨a, ha⟩, d, hd⟩
    exact ⟨_, decodeSetDrive_eq_ok_iff.mpr ⟨a, d, ha, hd, rfl⟩⟩

/-- `SET_CONTROL` decodes when its field names a value (R86 case (d)). -/
theorem exists_decodeSetControl_iff (f : Fields) : (∃ i, decodeSetControl f = .ok i) ↔ f.fa.toNat < 2 := by
  rw [← exists_enableOfField_iff]
  constructor
  · rintro ⟨i, hi⟩
    obtain ⟨en, hen, -⟩ := decodeSetControl_eq_ok_iff.mp hi
    exact ⟨en, hen⟩
  · rintro ⟨en, hen⟩
    exact ⟨_, decodeSetControl_eq_ok_iff.mpr ⟨en, hen, rfl⟩⟩

/-- A row decodes to operations of its own (R89). -/
theorem decodeFields_opcode {op : Opcode} {f : Fields} {i : Instr} (h : decodeFields op f = .ok i) : i.opcode = op := by
  cases op
  case setDrive =>
    obtain ⟨-, hok⟩ := requireZero_eq_ok_iff.mp h
    obtain ⟨a, d, -, -, rfl⟩ := decodeSetDrive_eq_ok_iff.mp hok
    rfl
  case setControl =>
    obtain ⟨-, hok⟩ := requireZero_eq_ok_iff.mp h
    obtain ⟨en, -, rfl⟩ := decodeSetControl_eq_ok_iff.mp hok
    rfl
  all_goals
    obtain ⟨-, hok⟩ := requireZero_eq_ok_iff.mp h
    cases hok
    rfl

/-- The restricted operands of the row are in range: what R86 (c) and (d) ask of `SET_DRIVE` and `SET_CONTROL`. -/
def Opcode.operandsInRange (op : Opcode) (w : CmdWord) : Prop :=
  (op = .setDrive → bits w 55 52 < 2 ∧ bits w 51 48 < 3) ∧ (op = .setControl → bits w 55 52 < 2)

/-- A row decodes a word exactly when its reserved fields are zero and its restricted operands in range (R89). -/
theorem exists_decodeFields_iff (op : Opcode) (w : CmdWord) :
    (∃ i, decodeFields op (fieldsOf w) = .ok i) ↔ op.reservedZero (fieldsOf w) ∧ op.operandsInRange w := by
  cases op
  case setDrive =>
    simp [decodeFields, Opcode.reservedZero, Opcode.operandsInRange, exists_decodeSetDrive_iff, toNat_fa, toNat_fb]
  case setControl =>
    simp [decodeFields, Opcode.reservedZero, Opcode.operandsInRange, exists_decodeSetControl_iff, toNat_fa, and_assoc]
  all_goals simp [decodeFields, Opcode.reservedZero, Opcode.operandsInRange, and_assoc]

/-! ### Legal and illegal words (R86, R88) -/

theorem legalFor_iff (op : Opcode) (w : CmdWord) :
    legalFor op w ↔ bits w 63 56 = op.byte.toNat ∧ op.reservedZero (fieldsOf w) ∧ op.operandsInRange w := by
  rw [legalFor, Opcode.masked_eq_pattern_iff, and_assoc]; rfl

theorem Opcode.eq_of_bits_opc {w : CmdWord} {op op' : Opcode} (h : bits w 63 56 = op.byte.toNat)
    (h' : bits w 63 56 = op'.byte.toNat) : op' = op :=
  Opcode.byte_inj (BitVec.eq_of_toNat_eq (h'.symm.trans h))

/-- A word is legal for one row at most (R85). -/
theorem legalFor_unique {w : CmdWord} {op op' : Opcode} (h : legalFor op w) (h' : legalFor op' w) : op' = op :=
  Opcode.eq_of_bits_opc ((legalFor_iff op w).mp h).1 ((legalFor_iff op' w).mp h').1

/-- The cases (a) to (d) of R86 are exactly what keeps a word from being legal for a row. -/
theorem illegal_iff (w : CmdWord) : illegal w ↔ ∀ op, ¬ legalFor op w := by
  have blocked_iff (op : Opcode) :
      (reservedBitSet op w ∨ (op = .setDrive ∧ (2 ≤ bits w 55 52 ∨ 3 ≤ bits w 51 48)) ∨ (op = .setControl ∧ 2 ≤ bits w 55 52)) ↔
        ¬ (op.reservedZero (fieldsOf w) ∧ op.operandsInRange w) := by
    simp only [reservedBitSet_iff, Opcode.operandsInRange, not_and_or, Classical.not_imp, not_lt]
  simp only [illegal, blocked_iff, legalFor_iff]
  constructor
  · rintro (hnone | ⟨op, hopc, hblocked⟩) op' ⟨hopc', hlegal⟩
    · exact hnone op' hopc'
    · exact hblocked (Opcode.eq_of_bits_opc hopc hopc' ▸ hlegal)
  · intro h
    by_cases hopc : ∃ op : Opcode, bits w 63 56 = op.byte.toNat
    · obtain ⟨op, hopc⟩ := hopc
      exact .inr ⟨op, hopc, fun hlegal => h op ⟨hopc, hlegal⟩⟩
    · exact .inl (not_exists.mp hopc)

/-- A word decodes to an operation of a row exactly when it is legal for the row (R89). -/
theorem exists_decode_iff (w : CmdWord) (op : Opcode) : (∃ i, decode w = .ok i ∧ i.opcode = op) ↔ legalFor op w := by
  rw [legalFor_iff, bits_opc_eq_byte_iff, ← exists_decodeFields_iff]
  constructor
  · rintro ⟨i, hi, rfl⟩
    unfold decode at hi
    split at hi
    · cases hi
    next op' hop' =>
      obtain rfl := decodeFields_opcode hi
      exact ⟨(Opcode.byte_of_ofByte hop').symm, i, hi⟩
  · rintro ⟨hopc, i, hi⟩
    exact ⟨i, by simp [decode, hopc, hi], decodeFields_opcode hi⟩

/-- Settles O3: a word that is legal for some row decodes there, and for no other row; a word legal for none is illegal. -/
theorem wordsAreLegalOrIllegal : Obligations.WordsAreLegalOrIllegal := by
  intro w
  by_cases h : ∃ op, legalFor op w
  · obtain ⟨op, hop⟩ := h
    have hlegal : ¬ illegal w := fun hill => (illegal_iff w).mp hill op hop
    exact .inl ⟨op, hop, fun _ => legalFor_unique hop, hlegal, (exists_decode_iff w op).mpr hop⟩
  · have hnone : ∀ op, ¬ legalFor op w := not_exists.mp h
    refine .inr ⟨hnone, (illegal_iff w).mpr hnone, ?_⟩
    cases hd : decode w with
    | error why => exact ⟨why, rfl⟩
    | ok i => exact absurd ((exists_decode_iff w i.opcode).mp ⟨i, hd, rfl⟩) (hnone _)

/-! ### The example words (R93) -/

/-- Settles O5, by running the assembler, the decoder and `binary32` on the examples. -/
theorem exampleWordsDecode : Obligations.ExampleWordsDecode := by
  refine ⟨forall₂_and.mpr ⟨?assembles, ?decodes⟩, ?gain⟩
  case assembles => decide +kernel
  case decodes => decide
  case gain => decide +kernel

end Sys2Proof

namespace Sys2Proof.Machine

open Sys2Proof.Claims

/-! ### The binary32 operand (R83) -/

theorem toNat_expField (v : U32) : (v.extractLsb' 23 8).toNat = expField v := by
  simp [expField, Nat.shiftRight_eq_div_pow]

theorem toNat_fracField (v : U32) : (v.extractLsb' 0 23).toNat = fracField v := by simp [fracField]

/-- The model's quotient by `2^150` is the power of two of R83. -/
theorem scaledValue_eq_binaryValue (v : U32) (m k : Nat) :
    scaledValue (v.getLsbD 31) m k = binaryValue v m ((k : Int) - 150) := by
  have hpow : (2 : Rat) ^ ((k : Int) - 150) = 2 ^ k / 2 ^ 150 := by
    rw [zpow_sub₀ two_ne_zero]; rfl
  rw [scaledValue, binaryValue, Rat.mkRat_eq_div, hpow]
  cases v.getLsbD 31 <;> simp <;> ring

/-- `binary32` by the cases of R83. -/
theorem binary32_eq (v : U32) :
    binary32 v =
      if expField v = 0 then .finite (binaryValue v (fracField v) (-149))
      else if expField v = 255 then
        if fracField v = 0 then (if v.getLsbD 31 then .negInf else .posInf) else .nan
      else .finite (binaryValue v (2 ^ 23 + fracField v) ((expField v : Int) - 150)) := by
  simp only [binary32, toNat_expField, toNat_fracField, scaledValue_eq_binaryValue]
  rfl

@[simp] theorem binaryValue_zero (v : U32) (k : Int) : binaryValue v 0 k = 0 := by simp [binaryValue]

/-- Settles O6: each clause is one branch of `binary32`, and both zeros have fraction 0. -/
theorem binary32Exact : Obligations.Binary32Exact := by
  intro v
  rw [binary32_eq]
  refine ⟨fun he => ?subnormal, fun hlo hhi => ?normal, fun he hf => ?infinite, fun he hf => ?nan, fun he hf => ?zero⟩
  case subnormal => rw [if_pos he]
  case normal => rw [if_neg (by omega), if_neg (by omega)]
  case infinite => rw [if_neg (by omega), if_pos he, if_pos hf]
  case nan => rw [if_neg (by omega), if_pos he, if_neg hf]
  case zero => rw [if_pos he, hf, binaryValue_zero]

end Sys2Proof.Machine

namespace Sys2Proof.Machine

open Sys2Proof.Claims Sys2Proof.Safety

/-! ### The fields a drive command writes (R101 to R103) -/

@[simp] theorem toNat_ofU32 {n : Nat} (h : n < 2 ^ 32) : (ofU32 n).toNat = n := by
  rw [ofU32, BitVec.toNat_ofNat, Nat.mod_eq_of_lt h]

theorem offTicks_le_frameTicks (c : Params) (m : Nat) : offTicks c m ≤ c.frameTicks := by
  have hmul : (100 - m) * c.frameTicks ≤ 100 * c.frameTicks := Nat.mul_le_mul_right _ (Nat.sub_le 100 m)
  unfold offTicks
  omega

@[simp] theorem offTicks_zero (c : Params) : offTicks c 0 = c.frameTicks := by simp [offTicks]

@[simp] theorem offTicks_hundred (c : Params) : offTicks c 100 = 0 := by simp [offTicks]

/-- A larger magnitude has no longer off phase (R102). -/
theorem offTicks_antitone (c : Params) {m m' : Nat} (h : m ≤ m') : offTicks c m' ≤ offTicks c m :=
  Nat.div_le_div_right (Nat.mul_le_mul_right _ (Nat.sub_le_sub_left h 100))

/-- The natural-number quotient of R102 is the floor of the rational one. -/
theorem offTicks_eq_floor (c : Params) {m : Nat} (h : m ≤ 100) :
    (offTicks c m : Int) = ⌊((100 - (m : Rat)) * (c.frameTicks : Rat)) / 100⌋ := by
  have hcast : (100 - (m : Rat)) * (c.frameTicks : Rat) = (((100 - m) * c.frameTicks : Nat) : Rat) := by
    push_cast [h]; rfl
  have hfloor := Rat.floor_natCast_div_natCast ((100 - m) * c.frameTicks) 100
  rw [hcast]
  exact hfloor.symm

/-- Settles O22: the floor by the cast of the quotient, the rest by the form of `off_ticks`. -/
theorem offTicksFloor : Obligations.OffTicksFloor := fun c =>
  ⟨fun _ h => offTicks_eq_floor c h, offTicks_zero c, offTicks_hundred c, fun _ _ h _ => offTicks_antitone c h⟩

/-- The claims write R101's clamp out again; it is the model's. -/
theorem magOf_le (m : Int) : magOf m ≤ 100 := clampMag_le m

/-- The bank of a drive command is R101's, when the counts fit their fields. -/
theorem Servo.driven_driveOf {c : Params} (hc : c.Valid) (a : Axis) (dir : Dir) (m : Int) (b : Servo) :
    DriveOf c a dir (magOf m) b (b.driven c a dir m) where
  cmd_mag := by
    have hle := magOf_le m
    show (BitVec.ofNat 8 (magOf m)).toNat = magOf m
    rw [BitVec.toNat_ofNat, Nat.mod_eq_of_lt (by omega)]
  cmd_dir := rfl
  on_period := toNat_ofU32 hc.on_u32
  off_period := toNat_ofU32 ((offTicks_le_frameTicks c _).trans_lt hc.frame_u32)
  active_idle h := by subst h; rfl
  active_forward h := by subst h; rfl
  active_reverse h := by subst h; rfl
  idle_pw := rfl
  elapsed := rfl
  drive_active := rfl

/-- Settles O21: the operation is one `apply_drive`, whose bank is R101's. -/
theorem setDriveResult : Obligations.SetDriveResult := fun a dir m s hc =>
  ⟨(s.servo a).driven s.cfg a dir m, Servo.driven_driveOf hc a dir m _, rfl⟩

/-! ### One tick of a bank (R105, R106) -/

/-- A count below a u32 bound goes up by one without wrapping (R8). -/
theorem toNat_ofU32_succ {x y : U32} (h : x.toNat + 1 < y.toNat) : (ofU32 (x.toNat + 1)).toNat = x.toNat + 1 :=
  toNat_ofU32 (h.trans y.isLt)

/-- What a tick does to a bank: R105's five cases, and the command kept. -/
theorem Servo.ticked_tickOf (b : Servo) : TickOf b b.ticked where
  on_counts hon hlt := by
    simp [Servo.ticked, Servo.tickOn, hon, Nat.not_le.mpr hlt, toNat_ofU32_succ hlt]
  on_ends hon hle := by simp [Servo.ticked, Servo.tickOn, hon, hle]
  off_counts hoff hlt := by
    simp [Servo.ticked, Servo.tickOff, hoff, Nat.not_le.mpr hlt, toNat_ofU32_succ hlt]
  off_holds hoff hle hmag := by simp [Servo.ticked, Servo.tickOff, hoff, hle, hmag]
  off_ends hoff hle hmag := by simp [Servo.ticked, Servo.tickOff, hoff, hle, hmag]
  command := by
    unfold Servo.ticked Servo.tickOn Servo.tickOff
    repeat' split
    all_goals exact ⟨rfl, rfl, rfl, rfl, rfl, rfl⟩

@[simp] theorem Servo.ticked_cmdMag (b : Servo) : b.ticked.cmdMag = b.cmdMag := b.ticked_tickOf.command.1

@[simp] theorem Servo.ticked_onPeriod (b : Servo) : b.ticked.onPeriod = b.onPeriod := by
  obtain ⟨-, -, hon, -⟩ := b.ticked_tickOf.command; exact hon

@[simp] theorem Servo.ticked_offPeriod (b : Servo) : b.ticked.offPeriod = b.offPeriod := by
  obtain ⟨-, -, -, hoff, -⟩ := b.ticked_tickOf.command; exact hoff

@[simp] theorem Servo.ticked_activePw (b : Servo) : b.ticked.activePw = b.activePw := by
  obtain ⟨-, -, -, -, hpw, -⟩ := b.ticked_tickOf.command; exact hpw

/-- A field that no tick writes is kept by any number of ticks. -/
theorem Servo.iterate_ticked_keeps {α : Type} {f : Servo → α} (hf : ∀ b, f b.ticked = f b) (k : Nat) (b : Servo) :
    f (Servo.ticked^[k] b) = f b := by
  induction k generalizing b with
  | zero => rfl
  | succ k ih => rw [Function.iterate_succ_apply, ih, hf]

theorem Servo.width_of_off {b : Servo} (h : b.driveActive = false) : b.width = b.idlePw := by simp [Servo.width, h]

/-- With equal widths the phase does not show at the output (R110, direction Idle). -/
theorem Servo.width_of_activePw_eq {b : Servo} (h : b.activePw = b.idlePw) : b.width = b.idlePw := by simp [Servo.width, h]

/-! ### A tick, a stop and a drive command, axis by axis (R104, R107, R108, R112) -/

theorem exec_tick (s : State) : exec .tick s = .next (respond .none (tick s)) := rfl

theorem servo_tick_running {s : State} (h : s.estop = false) (a : Axis) : (tick s).servo a = (s.servo a).ticked := by
  rw [tick_running h]; cases a <;> rfl

theorem channel_tick_running {s : State} (h : s.estop = false) (a : Axis) :
    (tick s).channel a = { s.channel a with pw := (s.servo a).ticked.width } := by
  rw [tick_running h]; cases a <;> rfl

@[simp] theorem servo_respond (r : Response) (s : State) (a : Axis) : (respond r s).servo a = s.servo a := rfl

@[simp] theorem channel_respond (r : Response) (s : State) (a : Axis) : (respond r s).channel a = s.channel a := rfl

theorem channel_tick_pw {s : State} (h : s.estop = false) (a : Axis) :
    ((tick s).channel a).pw = (s.servo a).ticked.width := by rw [channel_tick_running h]

theorem channel_tick_en (s : State) (a : Axis) : ((tick s).channel a).en = (s.channel a).en := by
  cases h : s.estop with
  | true => rw [tick_stopped h]
  | false => rw [channel_tick_running h]

theorem channel_disableAll (s : State) (a : Axis) : (disableAll s).channel a = { s.channel a with en := false } := by
  cases a <;> rfl

theorem channel_disableAll_pw (s : State) (a : Axis) : ((disableAll s).channel a).pw = (s.channel a).pw := by
  rw [channel_disableAll]

/-- Settles O23: each bank by R105, each output by the updated phase. -/
theorem tickResult : Obligations.TickResult := by
  intro s h
  refine ⟨s.srv.h.ticked, s.srv.v.ticked, s.srv.h.ticked_tickOf, s.srv.v.ticked_tickOf, ?_⟩
  rw [exec_tick, tick_running h]
  rfl

/-- Settles O24: a stopped tick is the identity, and the invariant ties the enables to `estop`. -/
theorem tickFrozen : Obligations.TickFrozen := by
  intro s h
  refine ⟨?frozen, fun hinv a => ?disabled⟩
  case frozen =>
    rw [exec_tick, tick_stopped h]
    rfl
  case disabled => rw [hinv.enable a, h]; rfl

/-- Settles O26: of the operations beside `TICK` and `DISABLE_ALL` none writes an output, and each of the two writes one field. -/
theorem outputsWrittenByTickOnly : Obligations.OutputsWrittenByTickOnly := by
  intro i s t h
  by_cases htick : i = .tick
  · subst htick; cases h
    exact ⟨fun hne => absurd rfl hne, fun _ a => channel_tick_en s a⟩
  by_cases hstop : i = .disableAll
  · subst hstop; cases h
    exact ⟨fun _ a => channel_disableAll_pw s a, fun hne => absurd rfl hne⟩
  obtain ⟨-, hout⟩ := exec_drives h htick hstop
  simp [State.channel, hout]

/-- A response shows on no axis. -/
theorem sameAxis_respond {a : Axis} {s s' : State} (h : sameAxis a s s') (r r' : Response) :
    sameAxis a (respond r s) (respond r' s') := h

theorem sameAxis_tick {a : Axis} {s s' : State} (h : sameAxis a s s') : sameAxis a (tick s) (tick s') := by
  obtain ⟨hcfg, hestop, hservo, hchannel⟩ := h
  cases hs : s.estop with
  | true =>
    rw [tick_stopped hs, tick_stopped (hestop.symm.trans hs)]
    exact ⟨hcfg, hestop, hservo, hchannel⟩
  | false =>
    have hs' : s'.estop = false := hestop.symm.trans hs
    refine ⟨by simpa using hcfg, by simpa using hestop, ?_, ?_⟩
    · rw [servo_tick_running hs, servo_tick_running hs', hservo]
    · rw [channel_tick_running hs, channel_tick_running hs', hservo, hchannel]

theorem sameAxis_disableAll {a : Axis} {s s' : State} (h : sameAxis a s s') : sameAxis a (disableAll s) (disableAll s') := by
  obtain ⟨hcfg, -, hservo, hchannel⟩ := h
  exact ⟨hcfg, rfl, hservo, by rw [channel_disableAll, channel_disableAll, hchannel]⟩

/-- A command for one axis leaves the other (R112). -/
theorem sameAxis_applyDrive_ne {a b : Axis} (hne : a ≠ b) (dir : Dir) (m : Int) (s : State) :
    sameAxis a s (applyDrive b dir m s) :=
  ⟨rfl, rfl, (servo_applyDrive_ne s dir m hne).symm, rfl⟩

theorem sameAxis_applyDrive {a : Axis} {s s' : State} (h : sameAxis a s s') (b : Axis) (dir : Dir) (m : Int) :
    sameAxis a (applyDrive b dir m s) (applyDrive b dir m s') := by
  obtain ⟨hcfg, hestop, hservo, hchannel⟩ := h
  refine ⟨hcfg, hestop, ?_, hchannel⟩
  by_cases hab : a = b
  · subst hab; rw [servo_applyDrive_self, servo_applyDrive_self, hservo, hcfg]
  · rw [servo_applyDrive_ne s dir m hab, servo_applyDrive_ne s' dir m hab, hservo]

/-- Settles O27: each operation of the family keeps the agreement, since it forms one axis from that axis alone. -/
theorem axesIndependent : Obligations.AxesIndependent := by
  refine ⟨?agree, ?frame⟩
  case agree =>
    rintro a i s s' t t' (rfl | rfl | ⟨b, dir, m, rfl⟩) hsame h h' <;> cases h <;> cases h' <;> apply sameAxis_respond
    · exact sameAxis_tick hsame
    · exact sameAxis_disableAll hsame
    · exact sameAxis_applyDrive hsame b dir m
  case frame =>
    intro a b dir m s t hne h
    cases h
    exact sameAxis_applyDrive_ne hne.symm dir m s

end Sys2Proof.Machine

namespace Sys2Proof.Machine

open Sys2Proof.Claims Sys2Proof.Safety

/-! ### The duty cycle of one bank (R110)

The phase and the count of a bank together are a place in a cycle of `on_period + off_period` ticks, the on phase first. From the
first tick after a command on, every tick moves one place on, so any run of one cycle's length visits each place once. -/

/-- The count has not reached the length of the phase. -/
def Servo.InCycle (b : Servo) : Prop := b.elapsed.toNat < if b.driveActive then b.onPeriod.toNat else b.offPeriod.toNat

/-- The place in the cycle: the on phase at 0 to `on_period - 1`, the off phase after it. -/
def Servo.place (b : Servo) : Nat := if b.driveActive then b.elapsed.toNat else b.onPeriod.toNat + b.elapsed.toNat

/-- The length of the cycle. -/
def Servo.cycle (b : Servo) : Nat := b.onPeriod.toNat + b.offPeriod.toNat

@[simp] theorem Servo.cycle_ticked (b : Servo) : b.ticked.cycle = b.cycle := by simp [Servo.cycle]

theorem Servo.InCycle.elapsed_lt_on {b : Servo} (h : b.InCycle) (hon : b.driveActive = true) :
    b.elapsed.toNat < b.onPeriod.toNat := by simpa [Servo.InCycle, hon] using h

theorem Servo.InCycle.elapsed_lt_off {b : Servo} (h : b.InCycle) (hoff : b.driveActive = false) :
    b.elapsed.toNat < b.offPeriod.toNat := by simpa [Servo.InCycle, hoff] using h

theorem Servo.place_of_on {b : Servo} (h : b.driveActive = true) : b.place = b.elapsed.toNat := by simp [Servo.place, h]

theorem Servo.place_of_off {b : Servo} (h : b.driveActive = false) : b.place = b.onPeriod.toNat + b.elapsed.toNat := by
  simp [Servo.place, h]

theorem Servo.InCycle.place_lt {b : Servo} (h : b.InCycle) : b.place < b.cycle := by
  unfold Servo.cycle
  cases hb : b.driveActive with
  | true => have := h.elapsed_lt_on hb; rw [place_of_on hb]; omega
  | false => have := h.elapsed_lt_off hb; rw [place_of_off hb]; omega

/-- The phase is read off the place. -/
theorem Servo.InCycle.driveActive_eq {b : Servo} (h : b.InCycle) : b.driveActive = decide (b.place < b.onPeriod.toNat) := by
  cases hb : b.driveActive with
  | true => simpa [place_of_on hb] using h.elapsed_lt_on hb
  | false => simp [place_of_off hb]

/-- At a magnitude above 0 a tick leaves the count inside its phase, whatever it was before. -/
theorem Servo.inCycle_ticked {b : Servo} (hmag : b.cmdMag.toNat ≠ 0) (hpos : 0 < b.onPeriod.toNat) : b.ticked.InCycle := by
  have ht := b.ticked_tickOf
  unfold Servo.InCycle
  rw [ticked_onPeriod, ticked_offPeriod]
  cases hb : b.driveActive with
  | true =>
    rcases Nat.lt_or_ge (b.elapsed.toNat + 1) b.onPeriod.toNat with hlt | hle
    · obtain ⟨hphase, hcount⟩ := ht.on_counts hb hlt
      simpa [hphase, hcount] using hlt
    · obtain ⟨hphase, hcount⟩ := ht.on_ends hb hle
      by_cases hzero : b.offPeriod.toNat = 0
      · simpa [hphase.mpr hzero, hcount] using hpos
      · have hoff : b.ticked.driveActive = false := by simpa using mt hphase.mp hzero
        simpa [hoff, hcount] using Nat.pos_of_ne_zero hzero
  | false =>
    rcases Nat.lt_or_ge (b.elapsed.toNat + 1) b.offPeriod.toNat with hlt | hle
    · obtain ⟨hphase, hcount⟩ := ht.off_counts hb hlt
      simpa [hphase, hcount] using hlt
    · obtain ⟨hphase, hcount⟩ := ht.off_ends hb hle hmag
      simpa [hphase, hcount] using hpos

/-- A tick moves a bank of magnitude above 0 one place on, the last place being followed by the first. -/
theorem Servo.InCycle.place_ticked {b : Servo} (h : b.InCycle) (hmag : b.cmdMag.toNat ≠ 0) :
    b.ticked.place = (b.place + 1) % b.cycle := by
  have ht := b.ticked_tickOf
  cases hb : b.driveActive with
  | true =>
    have hin := h.elapsed_lt_on hb
    rw [place_of_on hb]
    rcases Nat.lt_or_ge (b.elapsed.toNat + 1) b.onPeriod.toNat with hlt | hle
    · obtain ⟨hphase, hcount⟩ := ht.on_counts hb hlt
      rw [place_of_on hphase, hcount, Nat.mod_eq_of_lt (by unfold Servo.cycle; omega)]
    · obtain ⟨hphase, hcount⟩ := ht.on_ends hb hle
      have hend : b.elapsed.toNat + 1 = b.onPeriod.toNat := by omega
      rw [hend, Servo.cycle]
      by_cases hzero : b.offPeriod.toNat = 0
      · rw [place_of_on (hphase.mpr hzero), hcount, hzero, Nat.add_zero, Nat.mod_self]
      · rw [place_of_off (by simpa using mt hphase.mp hzero), ticked_onPeriod, hcount, Nat.mod_eq_of_lt (by omega), Nat.add_zero]
  | false =>
    have hin := h.elapsed_lt_off hb
    rw [place_of_off hb]
    rcases Nat.lt_or_ge (b.elapsed.toNat + 1) b.offPeriod.toNat with hlt | hle
    · obtain ⟨hphase, hcount⟩ := ht.off_counts hb hlt
      rw [place_of_off hphase, ticked_onPeriod, hcount, Nat.mod_eq_of_lt (by unfold Servo.cycle; omega), Nat.add_assoc]
    · obtain ⟨hphase, hcount⟩ := ht.off_ends hb hle hmag
      have hend : b.onPeriod.toNat + b.elapsed.toNat + 1 = b.cycle := by unfold Servo.cycle; omega
      rw [place_of_on hphase, hcount, hend, Nat.mod_self]

/-- After `k` ticks the bank is `k` places on, and so its phase is known. -/
theorem Servo.InCycle.driveActive_iterate {b : Servo} (h : b.InCycle) (hmag : b.cmdMag.toNat ≠ 0) (hpos : 0 < b.onPeriod.toNat)
    (k : Nat) : (Servo.ticked^[k] b).driveActive = decide ((b.place + k) % b.cycle < b.onPeriod.toNat) := by
  induction k generalizing b with
  | zero => rw [Nat.add_zero, Nat.mod_eq_of_lt h.place_lt]; exact h.driveActive_eq
  | succ k ih =>
    rw [Function.iterate_succ_apply, ih (inCycle_ticked hmag hpos) (by simpa using hmag) (by simpa using hpos),
      h.place_ticked hmag, cycle_ticked, ticked_onPeriod, Nat.mod_add_mod, Nat.add_assoc, Nat.add_comm 1 k]

/-- Of `on + off` consecutive numbers exactly `on` leave a remainder below `on`. -/
theorem count_add_mod_lt (p on off : Nat) : Nat.count (fun k => (p + k) % (on + off) < on) (on + off) = on := by
  have hfirst : Nat.count (fun k => k % (on + off) < on) (on + off) = on := by
    have hon : Nat.count (fun k => k % (on + off) < on) on = on :=
      Nat.count_of_forall fun k hk => by rw [Nat.mod_eq_of_lt (by omega)]; exact hk
    have hoff : Nat.count (fun k => (on + k) % (on + off) < on) off = 0 :=
      Nat.count_of_forall_not fun k hk => by rw [Nat.mod_eq_of_lt (by omega)]; omega
    rw [Nat.count_add, hon, hoff, Nat.add_zero]
  have hshift := Nat.count_add (fun k => k % (on + off) < on) (on + off) p
  rw [Nat.add_comm (on + off) p, Nat.count_add, hfirst] at hshift
  simp only [Nat.add_mod_left] at hshift
  omega

/-- The bank after 0, 1, …, one tick short of a cycle: exactly `on_period` of them are in the on phase. -/
theorem Servo.InCycle.countP_iterate {b : Servo} (h : b.InCycle) (hmag : b.cmdMag.toNat ≠ 0) (hpos : 0 < b.onPeriod.toNat) :
    (List.iterate Servo.ticked b b.cycle).countP (fun x => x.driveActive) = b.onPeriod.toNat := by
  rw [← List.range_map_iterate, List.countP_map]
  calc (List.range b.cycle).countP ((fun x : Servo => x.driveActive) ∘ fun k => Servo.ticked^[k] b)
      = (List.range b.cycle).countP (fun k => decide ((b.place + k) % b.cycle < b.onPeriod.toNat)) :=
        congrArg (List.countP · _) (funext fun k => h.driveActive_iterate hmag hpos k)
    _ = b.onPeriod.toNat := count_add_mod_lt b.place b.onPeriod.toNat b.offPeriod.toNat

/-- At magnitude 0 the phase is off from the end of the on phase in progress on (R105, R111). -/
theorem Servo.driveActive_iterate_of_mag_zero {b : Servo} (hmag : b.cmdMag.toNat = 0) (hpos : 0 < b.offPeriod.toNat) {k : Nat}
    (hon : b.driveActive = true → b.elapsed.toNat < b.onPeriod.toNat ∧ b.onPeriod.toNat ≤ b.elapsed.toNat + k) :
    (Servo.ticked^[k] b).driveActive = false := by
  induction k generalizing b with
  | zero =>
    rw [Function.iterate_zero_apply, Bool.eq_false_iff]
    intro hb
    obtain ⟨hlt, hle⟩ := hon hb
    omega
  | succ k ih =>
    rw [Function.iterate_succ_apply]
    refine ih (by simpa using hmag) (by simpa using hpos) fun hafter => ?_
    have ht := b.ticked_tickOf
    rw [ticked_onPeriod]
    cases hb : b.driveActive with
    | true =>
      obtain ⟨-, hle⟩ := hon hb
      rcases Nat.lt_or_ge (b.elapsed.toNat + 1) b.onPeriod.toNat with hlt | hend
      · obtain ⟨-, hcount⟩ := ht.on_counts hb hlt
        omega
      · have hzero := (ht.on_ends hb hend).1.mp hafter
        omega
    | false =>
      have hstays : b.ticked.driveActive = false := by
        rcases Nat.lt_or_ge (b.elapsed.toNat + 1) b.offPeriod.toNat with hlt | hend
        · exact (ht.off_counts hb hlt).1
        · exact (ht.off_holds hb hend hmag).1
      exact absurd hafter (by simp [hstays])

theorem drop_iterate_ticked (m n : Nat) (b : Servo) :
    (List.iterate Servo.ticked b n).drop m = List.iterate Servo.ticked (Servo.ticked^[m] b) (n - m) := by
  induction m generalizing n b with
  | zero => rfl
  | succ m ih =>
    cases n with
    | zero => simp
    | succ n => rw [List.iterate, List.drop_succ_cons, ih, Function.iterate_succ_apply, Nat.add_sub_add_right]

/-- Of the ticks of a bank all but the first `m` leave it ticked more than `m` times. -/
theorem exists_of_mem_drop_iterate_ticked {m n : Nat} {b x : Servo}
    (h : x ∈ (List.iterate Servo.ticked b.ticked n).drop m) : ∃ k, m < k ∧ x = Servo.ticked^[k] b := by
  rw [drop_iterate_ticked, List.mem_iterate] at h
  obtain ⟨j, -, hx⟩ := h
  refine ⟨j + (m + 1), by omega, ?_⟩
  rw [hx, Function.iterate_add_apply, Function.iterate_succ_apply]

/-- Any run of one cycle's ticks of a bank of magnitude above 0 has exactly `on_period` of them on (R110). -/
theorem Servo.countP_window {b : Servo} (hmag : b.cmdMag.toNat ≠ 0) (hpos : 0 < b.onPeriod.toNat) {first n : Nat}
    (hn : first + b.cycle ≤ n) :
    (((List.iterate Servo.ticked b.ticked n).drop first).take b.cycle).countP (fun x => x.driveActive) =
      b.onPeriod.toNat := by
  have hcomm : Servo.ticked^[first] b.ticked = (Servo.ticked^[first] b).ticked := by
    rw [← Function.iterate_succ_apply, Function.iterate_succ_apply']
  have hmag' : (Servo.ticked^[first] b).cmdMag = b.cmdMag := iterate_ticked_keeps ticked_cmdMag first b
  have hon : (Servo.ticked^[first] b).onPeriod = b.onPeriod := iterate_ticked_keeps ticked_onPeriod first b
  have hcycle : (Servo.ticked^[first] b).cycle = b.cycle := iterate_ticked_keeps cycle_ticked first b
  have hin : (Servo.ticked^[first] b).ticked.InCycle := inCycle_ticked (by rwa [hmag']) (by rwa [hon])
  have hcount := hin.countP_iterate (by rwa [ticked_cmdMag, hmag']) (by rwa [ticked_onPeriod, hon])
  rw [cycle_ticked, hcycle, ticked_onPeriod, hon] at hcount
  rw [drop_iterate_ticked, List.take_iterate, Nat.min_eq_left (by omega), hcomm, hcount]

/-! ### The operations that neither drive the axis nor stop the block (R109, R110) -/

theorem runSubState_estop (k : SubState) (s : State) : (runSubState k s).estop = s.estop := by
  cases k with
  | enable | disable => simp [runSubState]
  | move h => simp [runSubState, moveStep]
  | wait => simp only [runSubState, waitStep]; split <;> simp
  | rotStart r => simp [runSubState, rotStartStep]
  | rotating => simp only [runSubState, rotatingStep]; split <;> simp
  | idle => rfl

/-- Only `DISABLE_ALL` writes `estop` (R27). -/
theorem exec_estop {i : Instr} {s t : State} (h : exec i s = .next t) (hi : i ≠ .disableAll) : t.estop = s.estop := by
  cases i with
  | disableAll => exact absurd rfl hi
  | setDrive | sample | getGains => cases h; rfl
  | tick | setSetpoint | setControl => cases h; simp
  | pidStep e n =>
    simp only [exec, execPidStep] at h
    split at h <;> [skip; split at h] <;> cases h <;> simp
  | ctrlStep n =>
    simp only [exec, execCtrlStep] at h
    split at h <;> [skip; split at h] <;> cases h <;> simp
  | setKp g | setKi g | setKd g =>
    simp only [exec, execSetKp, execSetKi, execSetKd] at h
    split at h <;> cases h <;> rfl
  | setMode m =>
    simp only [exec, execSetMode] at h
    split at h <;> [skip; split at h] <;> cases h <;> rfl
  | supervisorStep btnH btnV swH swV =>
    simp only [exec, execSupervisorStep] at h
    split at h <;> cases h <;> simp [manualStep, manualAxis_eq, DriveCommand.apply, runSubState_estop]

theorem servo_applyAll_ne {a : Axis} {ds : List DriveCommand} (h : ∀ d ∈ ds, d.axis ≠ a) (s : State) :
    (applyAll ds s).servo a = s.servo a := by
  induction ds generalizing s with
  | nil => rfl
  | cons d ds ih =>
    obtain ⟨hd, hds⟩ := List.forall_mem_cons.mp h
    rw [applyAll_cons, ih hds]
    exact servo_applyDrive_ne s d.dir d.mag hd.symm

/-- An operation that commands no drive of the axis leaves its bank (R112, R70). -/
theorem exec_servo_undriven {i : Instr} {s t : State} {a : Axis} (h : exec i s = .next t) (htick : i ≠ .tick)
    (hstop : i ≠ .disableAll) (hd : drives i a s = false) : t.servo a = s.servo a := by
  obtain ⟨hsrv, -⟩ := exec_drives h htick hstop
  have hne : ∀ d ∈ driveCommands i s, d.axis ≠ a := by simpa [drives] using hd
  rw [State.servo, hsrv]
  exact servo_applyAll_ne hne s

/-- What a tick that leaves the bank `b` shows of its axis: the phase and the width. -/
def Servo.shown (b : Servo) : Bool × U16 := (b.driveActive, b.width)

theorem ticksSeen_cons {i : Instr} {s t : State} (h : exec i s = .next t) (a : Axis) (rest : List Instr) :
    ticksSeen a (i :: rest) s =
      if i = .tick then ((t.servo a).driveActive, (t.channel a).pw) :: ticksSeen a rest t else ticksSeen a rest t := by
  simp [ticksSeen, h]

/-- The first operation of an undisturbed run answers, is no stop and does not drive the axis. -/
theorem exists_of_undisturbed_cons {a : Axis} {i : Instr} {rest : List Instr} {s : State}
    (h : undisturbed a (i :: rest) s = true) :
    ∃ t, exec i s = .next t ∧ i ≠ .disableAll ∧ drives i a s = false ∧ undisturbed a rest t = true := by
  cases ht : exec i s with
  | next t =>
    refine ⟨t, rfl, ?_⟩
    simpa [undisturbed, ht, and_assoc] using h
  | fault | refused => simp [undisturbed, ht] at h

/-- In an undisturbed run the ticks show the bank ticked once, twice, and so on, whatever stands between them (R110). -/
theorem ticksSeen_eq (a : Axis) (ops : List Instr) {s : State} (hs : s.estop = false) (h : undisturbed a ops s = true) :
    ∃ n, ticksSeen a ops s = (List.iterate Servo.ticked (s.servo a).ticked n).map Servo.shown := by
  induction ops generalizing s with
  | nil => exact ⟨0, rfl⟩
  | cons i rest ih =>
    obtain ⟨t, ht, hstop, hdrives, hrest⟩ := exists_of_undisturbed_cons h
    obtain ⟨n, hn⟩ := ih ((exec_estop ht hstop).trans hs) hrest
    rw [ticksSeen_cons ht, hn]
    by_cases htick : i = .tick
    · subst htick
      cases ht
      refine ⟨n + 1, ?_⟩
      rw [if_pos rfl, servo_respond, channel_respond, servo_tick_running hs, channel_tick_pw hs]
      rfl
    · refine ⟨n, ?_⟩
      rw [if_neg htick, exec_servo_undriven ht htick hstop hdrives]

/-- A run of ticks ticks each bank and leaves its output at the width of the updated phase (R104, R106). -/
theorem runOps_ticks (a : Axis) (k : Nat) {s : State} (hs : s.estop = false) :
    ∃ t, runOps (List.replicate k .tick) s = some t ∧ t.servo a = Servo.ticked^[k] (s.servo a) ∧
      (k ≠ 0 → (t.channel a).pw = (t.servo a).width) := by
  induction k generalizing s with
  | zero => exact ⟨s, rfl, rfl, absurd rfl⟩
  | succ k ih =>
    obtain ⟨t, hrun, hbank, hwidth⟩ := ih (s := respond .none (tick s)) (by simpa using hs)
    refine ⟨t, hrun, by rw [hbank, servo_respond, servo_tick_running hs, Function.iterate_succ_apply], fun _ => ?_⟩
    rcases Nat.eq_zero_or_pos k with rfl | hk
    · cases hrun
      rw [channel_respond, channel_tick_pw hs, servo_respond, servo_tick_running hs]
    · exact hwidth hk.ne'

/-! ### After a drive command (R110, R111) -/

section AfterCommand

variable {c : Params} {a : Axis} {dir : Dir} {m : Nat} {b b' : Servo}

theorem cycle_of_driveOf (hd : DriveOf c a dir m b b') : b'.cycle = c.onTicks + (100 - m) * c.frameTicks / 100 := by
  rw [Servo.cycle, hd.on_period, hd.off_period]

/-- After a command of magnitude 0 the phase is off from the end of the on phase in progress on (R111). -/
theorem off_of_driveOf_zero (hc : c.Valid) (hb : BankInv c a b) (hd : DriveOf c a dir 0 b b') {k : Nat}
    (hk : b.driveActive = true → c.onTicks ≤ b.elapsed.toNat + k) : (Servo.ticked^[k] b').driveActive = false := by
  have hframe := hc.frame_pos
  have hoff := hd.off_period
  refine Servo.driveActive_iterate_of_mag_zero hd.cmd_mag (by omega) fun hon => ?_
  rw [hd.drive_active] at hon
  rw [hd.elapsed, hd.on_period]
  exact ⟨hb.elapsed_on hon, hk hon⟩

/-- After a command of direction Idle the width is the idle one in both phases (R103, R110). -/
theorem width_of_driveOf_idle (hb : BankInv c a b) (hd : DriveOf c a .idle m b b') (k : Nat) :
    (Servo.ticked^[k] b').width = c.pwIdle.get a := by
  have hidle : (Servo.ticked^[k] b').idlePw = c.pwIdle.get a := by
    rw [Servo.iterate_ticked_keeps Servo.ticked_idlePw, hd.idle_pw, hb.idle_pw]
  have hactive : (Servo.ticked^[k] b').activePw = c.pwIdle.get a := by
    rw [Servo.iterate_ticked_keeps Servo.ticked_activePw, hd.active_idle rfl]
  rw [Servo.width_of_activePw_eq (hactive.trans hidle.symm), hidle]

/-- After a command a bank whose phase is off has the idle width (R106, R111). -/
theorem width_of_driveOf_off (hb : BankInv c a b) (hd : DriveOf c a dir m b b') {k : Nat}
    (hoff : (Servo.ticked^[k] b').driveActive = false) : (Servo.ticked^[k] b').width = c.pwIdle.get a := by
  rw [Servo.width_of_off hoff, Servo.iterate_ticked_keeps Servo.ticked_idlePw, hd.idle_pw, hb.idle_pw]

end AfterCommand

/-- The bank of an axis right after a command for it is R101's, in a state that meets the invariants. -/
theorem driveOf_applyDrive {s : State} (hs : Inv s) (a : Axis) (dir : Dir) (m : Int) :
    DriveOf s.cfg a dir (magOf m) (s.servo a) ((applyDrive a dir m s).servo a) := by
  rw [servo_applyDrive_self]
  exact Servo.driven_driveOf hs.cfg a dir m (s.servo a)

/-- Settles O28: the ticks show the commanded bank ticked again and again, and the three clauses are facts of that bank. -/
theorem dutyCycle : Obligations.DutyCycle := by
  intro s a dir m ops hinv hs hundisturbed _
  have hb := hinv.bank a
  have hd := driveOf_applyDrive hinv a dir m
  obtain ⟨n, hn⟩ := ticksSeen_eq a ops (s := applyDrive a dir m s) hs hundisturbed
  rw [hn]
  generalize (applyDrive a dir m s).servo a = b at hd
  refine ⟨fun hpos hle first period hperiod hlen => ?runs, fun hzero x hx => ?zero, fun hidle x hx => ?idle⟩
  case runs =>
    lift m to Nat using by omega
    have hmag : magOf m = m := clampMag_of_mem (by omega) hle
    rw [hmag] at hd
    have hcycle : period = b.cycle := by
      rw [cycle_of_driveOf hd]; zify [show m ≤ 100 by omega]; exact hperiod
    have hmagNe : b.cmdMag.toNat ≠ 0 := by rw [hd.cmd_mag]; omega
    have honPos : 0 < b.onPeriod.toNat := by rw [hd.on_period]; exact hinv.cfg.on_pos
    rw [List.length_map, List.length_iterate, hcycle] at hlen
    rw [← List.map_drop, ← List.map_take, List.countP_map, hcycle]
    exact (Servo.countP_window hmagNe honPos hlen).trans hd.on_period
  case zero =>
    subst hzero
    rw [← List.map_drop] at hx
    obtain ⟨y, hy, rfl⟩ := List.mem_map.mp hx
    obtain ⟨k, hk, rfl⟩ := exists_of_mem_drop_iterate_ticked hy
    exact off_of_driveOf_zero hinv.cfg hb hd fun _ => by omega
  case idle =>
    subst hidle
    obtain ⟨y, hy, rfl⟩ := List.mem_map.mp hx
    obtain ⟨k, -, rfl⟩ := exists_of_mem_drop_iterate_ticked (m := 0) hy
    exact width_of_driveOf_idle hb hd k

/-- Settles O29: after the command the bank's phase is off once the on phase has ended, and the last tick wrote its width. -/
theorem magnitudeZeroIsIdle : Obligations.MagnitudeZeroIsIdle := by
  intro s a dir k hinv _ hs hk
  have hb := hinv.bank a
  have hd := driveOf_applyDrive hinv a dir 0
  have hended : (s.servo a).driveActive = true → s.cfg.onTicks ≤ (s.servo a).elapsed.toNat + k := fun hon => by
    simpa [hon] using hk
  have hsome : k ≠ 0 := by
    split at hk
    case isTrue hon =>
      have hlt := hb.elapsed_on hon
      omega
    case isFalse => omega
  have hoff := off_of_driveOf_zero hinv.cfg hb hd hended
  obtain ⟨t, hrun, hservo, hwidth⟩ := runOps_ticks a k (s := respond .none (applyDrive a dir 0 s)) hs
  refine ⟨t, hrun, ?phase, ?output⟩
  case phase => rw [hservo]; exact hoff
  case output => rw [hwidth hsome, hservo]; exact width_of_driveOf_off hb hd hoff

end Sys2Proof.Machine

namespace Sys2Proof.Machine

open Sys2Proof.Claims

/-! ### The middle of three values (R131) -/

theorem median3_swap_left (a b c : Nat) : median3 a b c = median3 b a c := by
  rw [median3, median3, min_comm, max_comm a b]

theorem median3_swap_right (a b c : Nat) : median3 a b c = median3 a c b := by
  simp only [median3]; omega

theorem median3_of_le {a b c : Nat} (hab : a ≤ b) (hbc : b ≤ c) : median3 a b c = b := by
  rw [median3, min_eq_left hab, max_eq_right hab, min_eq_left hbc, max_eq_right hab]

/-- A value given twice is the middle one, whatever the third is (R131). -/
theorem median3_repeat (v x : Nat) : median3 v v x = v := by
  rw [median3, min_self, max_self]
  exact max_eq_left (min_le_left v x)

/-- Settles O32: the formula is the definition, and exchanging neighbours leads from the sorted order to the others. -/
theorem medianIsMiddle : Obligations.MedianIsMiddle := by
  refine ⟨fun _ _ _ => rfl, fun a b c hab hbc => ?orders⟩
  have habc : median3 a b c = b := median3_of_le hab hbc
  have hacb : median3 a c b = b := (median3_swap_right a c b).trans habc
  have hbac : median3 b a c = b := (median3_swap_left b a c).trans habc
  have hbca : median3 b c a = b := (median3_swap_right b c a).trans hbac
  have hcab : median3 c a b = b := (median3_swap_left c a b).trans hacb
  have hcba : median3 c b a = b := (median3_swap_left c b a).trans hbca
  exact ⟨habc, hacb, hbac, hbca, hcab, hcba⟩

/-! ### The low-pass (R133) -/

section Lowpass

variable {c : Params}

theorem scale_pos_of_valid (hc : c.Valid) : 0 < c.scale := hc.alpha_pos.trans hc.alpha_le

/-- From below the low-pass adds a fraction `ALPHA / SCALE` of the distance, rounded down (R133, R137). -/
theorem lowpass_of_le (hc : c.Valid) {m y : Nat} (h : y ≤ m) :
    lowpass c m y = y + c.alpha * (m - y) / c.scale := by
  have hsum : c.alpha * m + (c.scale - c.alpha) * y = c.scale * y + c.alpha * (m - y) := by
    zify [h, hc.alpha_le]; ring
  rw [lowpass, hsum, Nat.mul_add_div (scale_pos_of_valid hc)]

/-- From above the low-pass leaves a fraction `(SCALE - ALPHA) / SCALE` of the distance, rounded down (R133, R137). -/
theorem lowpass_of_ge (hc : c.Valid) {m y : Nat} (h : m ≤ y) :
    lowpass c m y = m + (c.scale - c.alpha) * (y - m) / c.scale := by
  have hsum : c.alpha * m + (c.scale - c.alpha) * y = c.scale * m + (c.scale - c.alpha) * (y - m) := by
    zify [h, hc.alpha_le]; ring
  rw [lowpass, hsum, Nat.mul_add_div (scale_pos_of_valid hc)]

/-- From below the low-pass moves toward the median and not past it. -/
theorem lowpass_mem_of_le (hc : c.Valid) {m y : Nat} (h : y ≤ m) : y ≤ lowpass c m y ∧ lowpass c m y ≤ m := by
  have hmove : c.alpha * (m - y) / c.scale ≤ m - y := Nat.div_le_of_le_mul (Nat.mul_le_mul_right _ hc.alpha_le)
  rw [lowpass_of_le hc h]
  exact ⟨Nat.le_add_right y _, (Nat.add_le_add_left hmove y).trans_eq (Nat.add_sub_of_le h)⟩

/-- From above the low-pass moves toward the median and not past it. -/
theorem lowpass_mem_of_ge (hc : c.Valid) {m y : Nat} (h : m ≤ y) : m ≤ lowpass c m y ∧ lowpass c m y ≤ y := by
  have hrest : (c.scale - c.alpha) * (y - m) / c.scale ≤ y - m :=
    Nat.div_le_of_le_mul (Nat.mul_le_mul_right _ (Nat.sub_le _ _))
  rw [lowpass_of_ge hc h]
  exact ⟨Nat.le_add_right m _, (Nat.add_le_add_left hrest m).trans_eq (Nat.add_sub_of_le h)⟩

/-- From below the low-pass stays put exactly inside the rounding band (R137). -/
theorem lowpass_eq_self_iff_of_le (hc : c.Valid) {m y : Nat} (h : y ≤ m) :
    lowpass c m y = y ↔ c.alpha * (m - y) < c.scale := by
  rw [lowpass_of_le hc h, Nat.add_eq_left, Nat.div_eq_zero_iff_lt (scale_pos_of_valid hc)]

/-- From above the low-pass always moves: the rounding goes toward the median (R137). -/
theorem lowpass_lt_self_of_lt (hc : c.Valid) {m y : Nat} (h : m < y) : lowpass c m y < y := by
  have hless : (c.scale - c.alpha) * (y - m) < c.scale * (y - m) :=
    Nat.mul_lt_mul_of_pos_right (Nat.sub_lt (scale_pos_of_valid hc) hc.alpha_pos) (Nat.sub_pos_of_lt h)
  have hrest : (c.scale - c.alpha) * (y - m) / c.scale < y - m := Nat.div_lt_of_lt_mul hless
  rw [lowpass_of_ge hc h.le]
  exact Nat.add_lt_of_lt_sub' hrest

theorem lowpass_mem (hc : c.Valid) (m y : Nat) : min m y ≤ lowpass c m y ∧ lowpass c m y ≤ max m y := by
  rcases le_total y m with h | h
  · rw [min_eq_right h, max_eq_left h]; exact lowpass_mem_of_le hc h
  · rw [min_eq_left h, max_eq_right h]; exact lowpass_mem_of_ge hc h

theorem lowpass_lt_of_lt_of_lt (hc : c.Valid) {m y n : Nat} (hm : m < n) (hy : y < n) : lowpass c m y < n :=
  (lowpass_mem hc m y).2.trans_lt (max_lt hm hy)

/-- A step that moves the position brings it nearer (R137). -/
theorem lowpass_dist_lt (hc : c.Valid) {m y : Nat} (h : lowpass c m y ≠ y) :
    Nat.dist (lowpass c m y) m < Nat.dist y m := by
  simp only [Nat.dist]
  rcases le_total y m with hle | hge
  · obtain ⟨_, _⟩ := lowpass_mem_of_le hc hle
    omega
  · obtain ⟨_, _⟩ := lowpass_mem_of_ge hc hge
    omega

/-- The rounding band is narrower than `ceil(SCALE / ALPHA)` (R137). -/
theorem sub_le_ceil_of_mul_lt (hc : c.Valid) {m y : Nat} (hy : y ≤ m) (h : c.alpha * (m - y) < c.scale) :
    (m : Int) - y ≤ ⌈(c.scale : Rat) / c.alpha⌉ - 1 := by
  have hpos : (0 : Rat) < c.alpha := by exact_mod_cast hc.alpha_pos
  rw [Int.le_sub_one_iff, ← Int.ofNat_sub hy, Int.lt_ceil, lt_div_iff₀ hpos, mul_comm]
  exact_mod_cast h

/-- The natural-number quotient of R133 is the floor of the rational one. -/
theorem lowpass_eq_floor (hc : c.Valid) (m y : Nat) :
    (lowpass c m y : Int) = ⌊((c.alpha : Rat) * m + ((c.scale : Rat) - c.alpha) * y) / c.scale⌋ := by
  have hcast : (c.alpha : Rat) * m + ((c.scale : Rat) - c.alpha) * y =
      ((c.alpha * m + (c.scale - c.alpha) * y : Nat) : Rat) := by
    push_cast [hc.alpha_le]; rfl
  rw [hcast, Rat.floor_natCast_div_natCast, lowpass]
  rfl

theorem lowpass_of_alpha_eq_scale (hc : c.Valid) (h : c.alpha = c.scale) (m y : Nat) : lowpass c m y = m := by
  rw [lowpass, h, Nat.sub_self, Nat.zero_mul, Nat.add_zero, Nat.mul_div_cancel_left m (scale_pos_of_valid hc)]

end Lowpass

/-- Settles O33: the cast of the quotient, and the bounds from either side of the median. -/
theorem lowpassExact : Obligations.LowpassExact := by
  intro c m y hc
  obtain ⟨hlow, hhigh⟩ := lowpass_mem hc m y
  exact ⟨lowpass_eq_floor hc m y, hlow, hhigh, lowpass_lt_of_lt_of_lt hc, fun h => lowpass_of_alpha_eq_scale hc h m y⟩

/-! ### One sample (R130, R132) -/

theorem exec_sample (raw : U32) (s : State) :
    exec (.sample raw) s =
      .next
        { s with
          flt := s.flt.sampled s.cfg raw
          posFresh := true
          resp := .filtered (s.flt.sampled s.cfg raw).y } := rfl

theorem Filter.sampled_of_unprimed {f : Filter} (h : f.primed = false) (c : Params) (raw : U32) :
    f.sampled c raw = Filter.seeded raw := by simp [Filter.sampled, h]

theorem Filter.sampled_of_primed {f : Filter} (h : f.primed = true) (c : Params) (raw : U32) :
    f.sampled c raw = f.advanced c raw := by simp [Filter.sampled, h]

/-- Settles O30: the sample of an unprimed filter is its seeding. -/
theorem firstSampleSeeds : Obligations.FirstSampleSeeds := by
  intro raw s h
  rw [exec_sample, Filter.sampled_of_unprimed h]
  rfl

/-! ### The window (R28, R130) -/

@[simp] theorem Window.get_set_self (w : Window) (i : Fin 3) (x : U32) : (w.set i x).get i = x := by
  fin_cases i <;> rfl

theorem Window.get_set_ne (w : Window) {i j : Fin 3} (x : U32) (h : j ≠ i) : (w.set i x).get j = w.get j := by
  match i, j, h with
  | 0, 1, _ | 0, 2, _ | 1, 0, _ | 1, 2, _ | 2, 0, _ | 2, 1, _ => rfl
  | 0, 0, h | 1, 1, h | 2, 2, h => exact absurd rfl h

/-- Two slots with one value make it the median (R131, R137). -/
theorem Window.median_of_two {w : Window} {v : U32} {i j : Fin 3} (hij : i ≠ j) (hi : w.get i = v) (hj : w.get j = v) :
    w.median = v.toNat := by
  have h01 (h0 : w.get 0 = v) (h1 : w.get 1 = v) : w.median = v.toNat := by
    rw [median, h0, h1, median3_repeat]
  have h02 (h0 : w.get 0 = v) (h2 : w.get 2 = v) : w.median = v.toNat := by
    rw [median, h0, h2, median3_swap_right, median3_repeat]
  have h12 (h1 : w.get 1 = v) (h2 : w.get 2 = v) : w.median = v.toNat := by
    rw [median, h1, h2, median3_swap_left, median3_swap_right, median3_repeat]
  match i, j, hij, hi, hj with
  | 0, 1, _, hi, hj => exact h01 hi hj
  | 1, 0, _, hi, hj => exact h01 hj hi
  | 0, 2, _, hi, hj => exact h02 hi hj
  | 2, 0, _, hi, hj => exact h02 hj hi
  | 1, 2, _, hi, hj => exact h12 hi hj
  | 2, 1, _, hi, hj => exact h12 hj hi
  | 0, 0, h, _, _ | 1, 1, h, _, _ | 2, 2, h, _, _ => exact absurd rfl h

/-- The latest sample: the cursor stands one slot past it (R130). -/
def Filter.latest (f : Filter) : U32 := f.win.get (f.cursor - 1)

theorem Filter.latest_seeded (v : U32) : (Filter.seeded v).latest = v := rfl

theorem Filter.latest_advanced (c : Params) (f : Filter) (v : U32) : (f.advanced c v).latest = v := by
  simp [Filter.latest, Filter.advanced]

theorem Filter.latest_sampled (c : Params) (f : Filter) (v : U32) : (f.sampled c v).latest = v := by
  unfold Filter.sampled
  split
  · exact f.latest_advanced c v
  · exact latest_seeded v

theorem Filter.primed_sampled (c : Params) (f : Filter) (v : U32) : (f.sampled c v).primed = true := by
  unfold Filter.sampled
  split
  case isTrue h => exact h
  case isFalse => rfl

/-- A sample that repeats the latest one makes it the median (R137). -/
theorem Filter.median_sampled {f : Filter} {v : U32} (hprimed : f.primed = true) (hlatest : f.latest = v) (c : Params) :
    (f.sampled c v).win.median = v.toNat := by
  have hne : f.cursor - 1 ≠ f.cursor := by generalize f.cursor = i; fin_cases i <;> decide
  rw [Filter.sampled_of_primed hprimed]
  exact Window.median_of_two hne ((f.win.get_set_ne v hne).trans hlatest) (f.win.get_set_self f.cursor v)

/-- A sample that repeats the latest one moves the position by one low-pass step toward it (R130, R137). -/
theorem Filter.toNat_y_sampled {c : Params} (hc : c.Valid) {f : Filter} {v : U32} (hprimed : f.primed = true)
    (hlatest : f.latest = v) : (f.sampled c v).y.toNat = lowpass c v.toNat f.y.toNat := by
  have hmedian := Filter.median_sampled hprimed hlatest c
  rw [Filter.sampled_of_primed hprimed] at hmedian ⊢
  rw [← hmedian]
  exact toNat_ofU32 (lowpass_lt_of_lt_of_lt hc (hmedian ▸ v.isLt) f.y.isLt)

/-! ### A run of equal samples (R137) -/

/-- The filter after `k` samples `v`. -/
def Filter.fed (c : Params) (v : U32) (k : Nat) (f : Filter) : Filter := (fun f => f.sampled c v)^[k] f

theorem Filter.fed_succ (c : Params) (v : U32) (k : Nat) (f : Filter) :
    f.fed c v (k + 1) = (f.fed c v k).sampled c v := Function.iterate_succ_apply' _ k f

theorem runOps_samples (v : U32) (k : Nat) (s : State) :
    ∃ t, runOps (List.replicate k (.sample v)) s = some t ∧ t.flt = s.flt.fed s.cfg v k := by
  induction k generalizing s with
  | zero => exact ⟨s, rfl, rfl⟩
  | succ k ih =>
    exact ih { s with flt := s.flt.sampled s.cfg v, posFresh := true, resp := .filtered (s.flt.sampled s.cfg v).y }

theorem positionAfter_eq (s : State) (v : U32) (k : Nat) :
    positionAfter s v k = (s.flt.fed s.cfg v k).y.toNat := by
  obtain ⟨t, hrun, hflt⟩ := runOps_samples v k s
  rw [positionAfter, hrun, ← hflt]

/-- From the second equal sample on the median is that value (R137). -/
theorem Filter.median_fed (c : Params) (v : U32) {k : Nat} (hk : 2 ≤ k) (f : Filter) :
    (f.fed c v k).win.median = v.toNat := by
  obtain ⟨k, rfl⟩ := Nat.exists_eq_add_of_le' hk
  rw [fed_succ, fed_succ]
  exact median_sampled (primed_sampled c _ v) (latest_sampled c _ v) c

section EqualSamples

variable {s : State} {v : U32}

/-- From the first equal sample on each further one is a low-pass step toward it (R137). -/
theorem positionAfter_succ (hc : s.cfg.Valid) (v : U32) {k : Nat} (hk : 1 ≤ k) :
    positionAfter s v (k + 1) = lowpass s.cfg v.toNat (positionAfter s v k) := by
  obtain ⟨k, rfl⟩ := Nat.exists_eq_add_of_le' hk
  rw [positionAfter_eq, positionAfter_eq, Filter.fed_succ, Filter.fed_succ]
  exact Filter.toNat_y_sampled hc (Filter.primed_sampled _ _ v) (Filter.latest_sampled _ _ v)

/-- The position nearest to the value is one the low-pass does not move. -/
theorem exists_settled (hc : s.cfg.Valid) (v : U32) :
    ∃ n, 1 ≤ n ∧ lowpass s.cfg v.toNat (positionAfter s v n) = positionAfter s v n := by
  obtain ⟨n, hnearest⟩ : ∃ n, ∀ k,
      Nat.dist (positionAfter s v (n + 1)) v.toNat ≤ Nat.dist (positionAfter s v (k + 1)) v.toNat :=
    ⟨_, fun k => Function.argmin_le (fun k => Nat.dist (positionAfter s v (k + 1)) v.toNat) k⟩
  have hn : 1 ≤ n + 1 := Nat.le_add_left 1 n
  refine ⟨n + 1, hn, by_contra fun hmoves => ?_⟩
  have hnearer := lowpass_dist_lt hc hmoves
  rw [← positionAfter_succ hc v hn] at hnearer
  exact (hnearest (n + 1)).not_gt hnearer

theorem positionAfter_of_settled (hc : s.cfg.Valid) (v : U32) {n k : Nat} (hn : 1 ≤ n)
    (hfix : lowpass s.cfg v.toNat (positionAfter s v n) = positionAfter s v n) (hk : n ≤ k) :
    positionAfter s v k = positionAfter s v n := by
  induction k, hk using Nat.le_induction with
  | base => rfl
  | succ k hk ih => rw [positionAfter_succ hc v (hn.trans hk), ih, hfix]

theorem le_positionAfter (hc : s.cfg.Valid) (h : v.toNat ≤ positionAfter s v 1) {k : Nat}
    (hk : 1 ≤ k) : v.toNat ≤ positionAfter s v k := by
  induction k, hk using Nat.le_induction with
  | base => exact h
  | succ k hk ih =>
    rw [positionAfter_succ hc v hk]
    exact (lowpass_mem_of_ge hc ih).1

theorem positionAfter_le (hc : s.cfg.Valid) (h : positionAfter s v 1 ≤ v.toNat) {k : Nat}
    (hk : 1 ≤ k) : positionAfter s v k ≤ v.toNat := by
  induction k, hk using Nat.le_induction with
  | base => exact h
  | succ k hk ih =>
    rw [positionAfter_succ hc v hk]
    exact (lowpass_mem_of_le hc ih).2

/-- From above the position reaches the value and stays there (R137). -/
theorem positionAfter_reaches_from_above (hc : s.cfg.Valid) (h : v.toNat ≤ positionAfter s v 1) :
    ∃ n, ∀ k, n ≤ k → positionAfter s v k = v.toNat := by
  obtain ⟨n, hn, hfix⟩ := exists_settled hc v
  have hnot : ¬ v.toNat < positionAfter s v n := fun hgt => (lowpass_lt_self_of_lt hc hgt).ne hfix
  have hvalue : positionAfter s v n = v.toNat := le_antisymm (not_lt.mp hnot) (le_positionAfter hc h hn)
  exact ⟨n, fun k hk => (positionAfter_of_settled hc v hn hfix hk).trans hvalue⟩

/-- From below the position stops inside the rounding band (R137). -/
theorem positionAfter_stops_from_below (hc : s.cfg.Valid) (h : positionAfter s v 1 ≤ v.toNat) :
    ∃ n y, (∀ k, n ≤ k → positionAfter s v k = y) ∧ y ≤ v.toNat ∧ s.cfg.alpha * (v.toNat - y) < s.cfg.scale := by
  obtain ⟨n, hn, hfix⟩ := exists_settled hc v
  have hle := positionAfter_le hc h hn
  exact ⟨n, positionAfter s v n, fun k hk => positionAfter_of_settled hc v hn hfix hk, hle,
    (lowpass_eq_self_iff_of_le hc hle).mp hfix⟩

end EqualSamples

/-- Settles O35: from the first sample on each further one is a low-pass step, and these bring the position nearer until one
leaves it where it is. -/
theorem constantInputConverges : Obligations.ConstantInputConverges := by
  intro s v hc _
  refine ⟨fun k hk => ?median, fun k hk h => ?above, positionAfter_reaches_from_above hc, fun k hk h => ?below,
    fun h => ?stops⟩
  case median =>
    obtain ⟨t, hrun, hflt⟩ := runOps_samples v k s
    refine ⟨t, hrun, ?_⟩
    rw [hflt]
    exact Filter.median_fed s.cfg v hk s.flt
  case above =>
    rw [positionAfter_succ hc v hk]
    exact lowpass_mem_of_ge hc h
  case below =>
    obtain ⟨hgrows, hbound⟩ := lowpass_mem_of_le hc h
    rw [positionAfter_succ hc v hk]
    exact ⟨hgrows, hbound, lowpass_eq_self_iff_of_le hc h⟩
  case stops =>
    obtain ⟨n, y, hstays, hy, hband⟩ := positionAfter_stops_from_below hc h
    exact ⟨n, y, hstays, hy, hband, sub_le_ceil_of_mul_lt hc hy hband⟩

end Sys2Proof.Machine

namespace Sys2Proof.Machine

open Sys2Proof.Claims Sys2Proof.Safety

/-! ### The formulas of a controller step (R150 to R156)

The claims write each formula of the rules out again; here each of them is the model's. -/

theorem inDeadzone_iff (c : Params) (e : Int) : inDeadzone c e = true ↔ |e| < (c.deadzone : Int) := by
  rw [inDeadzone, decide_eq_true_iff, Int.abs_eq_natAbs, Nat.cast_lt]

theorem effectiveError_eq (c : Params) (e : Int) : (effectiveError c e : Rat) = effError c e := by
  simp only [effectiveError, effError, inDeadzone_iff]
  split <;> simp

theorem nextIntegral_eq (c : Params) (k : Controller) (e : Int) (dt : Rat) :
    nextIntegral c k e dt = integAfter c k e dt := by
  rw [nextIntegral, effectiveError_eq]; rfl

theorem derivativeTerm_eq (k : Controller) (e : Int) (dt : Rat) : derivativeTerm k e dt = derivative k e dt := by
  rw [derivativeTerm, Int.cast_sub]; rfl

theorem rawOutput_eq (c : Params) (k : Controller) (e : Int) (dt : Rat) : rawOutput c k e dt = sumOutput c k e dt := by
  rw [rawOutput, effectiveError_eq, nextIntegral_eq, derivativeTerm_eq]; rfl

theorem gravityAssisted_iff (c : Params) (u : Rat) :
    gravityAssisted c u = true ↔ (c.gravitySign = .pos ∧ 0 < u) ∨ (c.gravitySign = .neg ∧ u < 0) := by
  unfold gravityAssisted
  split <;> simp [*]

theorem compensated_eq (c : Params) (u : Rat) : compensated c u = afterGravity c u := by
  simp only [compensated, afterGravity, gravityAssisted_iff]

theorem pidOutput_eq (c : Params) (k : Controller) (e : Int) (dt : Rat) : pidOutput c k e dt = output c k e dt := by
  rw [pidOutput, rawOutput_eq, compensated_eq]; rfl

/-- Rounding toward zero rounds a value that is not negative down (R11). -/
theorem trunc_of_nonneg {q : Rat} (h : 0 ≤ q) : trunc q = ⌊q⌋ := by
  rw [trunc, Int.tdiv_eq_ediv_of_nonneg (Rat.num_nonneg.mpr h), ← Rat.floor_def']

theorem driveMag_eq (u : Rat) : driveMag u = outMag u := by
  rw [driveMag, trunc_of_nonneg (abs_nonneg u), Int.floor_toNat]; rfl

theorem outMag_eq_zero_iff (u : Rat) : outMag u = 0 ↔ |u| < 1 := Nat.floor_eq_zero

theorem driveDir_eq (c : Params) (u : Rat) : driveDir c u = outDir c u := by
  simp only [driveDir, outDir, driveMag_eq, outMag_eq_zero_iff]

/-! ### The bounds of a controller step (R152, R155, R156) -/

theorem integAfter_mem {c : Params} (hc : c.Valid) (k : Controller) (e : Int) (dt : Rat) :
    c.iMin ≤ integAfter c k e dt ∧ integAfter c k e dt ≤ c.iMax :=
  ⟨le_clamp _ (hc.iMin_le.trans hc.le_iMax), clamp_le _ _ _⟩

theorem output_mem {c : Params} (hc : c.Valid) (k : Controller) (e : Int) (dt : Rat) :
    c.uMin ≤ output c k e dt ∧ output c k e dt ≤ c.uMax :=
  ⟨le_clamp _ (hc.uMin_neg.trans hc.uMax_pos).le, clamp_le _ _ _⟩

/-- The magnitude of an output fits a drive command, so `apply_drive` does not clamp it again (R101, R155). -/
theorem outMag_output_le {c : Params} (hc : c.Valid) (k : Controller) (e : Int) (dt : Rat) :
    outMag (output c k e dt) ≤ 100 := by
  obtain ⟨hlow, hhigh⟩ := output_mem hc k e dt
  have habs : |output c k e dt| ≤ ((100 : Nat) : Rat) := by
    exact_mod_cast abs_le.mpr ⟨hc.uMin_ge.trans hlow, hhigh.trans hc.uMax_le⟩
  exact Nat.floor_le_of_le habs

theorem magOf_outMag_output {c : Params} (hc : c.Valid) (k : Controller) (e : Int) (dt : Rat) :
    magOf (outMag (output c k e dt)) = outMag (output c k e dt) :=
  clampMag_of_mem (Int.natCast_nonneg _) (by exact_mod_cast outMag_output_le hc k e dt)

/-! ### Inside the deadzone (R151, R169) -/

theorem effError_of_deadzone {c : Params} {e : Int} (h : |e| < (c.deadzone : Int)) : effError c e = 0 := if_pos h

theorem integAfter_of_deadzone {c : Params} {k : Controller} {e : Int} (hge : c.iMin ≤ k.integ) (hle : k.integ ≤ c.iMax)
    (h : |e| < (c.deadzone : Int)) (dt : Rat) : integAfter c k e dt = k.integ := by
  rw [integAfter, effError_of_deadzone h, zero_mul, add_zero]
  exact clamp_of_mem hge hle

/-- Inside the deadzone the proportional term is gone (R169). -/
theorem sumOutput_of_deadzone {c : Params} {k : Controller} {e : Int} (hge : c.iMin ≤ k.integ) (hle : k.integ ≤ c.iMax)
    (h : |e| < (c.deadzone : Int)) (dt : Rat) : sumOutput c k e dt = k.ki * k.integ + derivative k e dt := by
  rw [sumOutput, integAfter_of_deadzone hge hle h, effError_of_deadzone h, mul_zero, zero_add]

/-! ### One controller step (R150, R158) -/

/-- The datapath of the model with its response is the datapath of the rules. -/
theorem pidOf_pid {s : State} (hc : s.cfg.Valid) (e : Int) (dt : Rat) :
    PidOf e dt s (respond (pidResponse e dt s) (pid e dt s)) := by
  have hmotion : (inDeadzone s.cfg e || s.motionComplete) = if |e| < (s.cfg.deadzone : Int) then true else s.motionComplete := by
    simp only [← inDeadzone_iff]
    cases inDeadzone s.cfg e <;> rfl
  have hdrive := Servo.driven_driveOf hc .v (outDir s.cfg (output s.cfg s.ctl e dt)) (outMag (output s.cfg s.ctl e dt)) s.srv.v
  rw [magOf_outMag_output hc] at hdrive
  refine ⟨_, hdrive, ?_⟩
  simp only [pid, pidResponse, pidOutput_eq, nextIntegral_eq, driveDir_eq, driveMag_eq, hmotion]
  rfl

/-- The datapath commands the vertical axis by its output (R150, R156). -/
theorem servo_pid_v (e : Int) (dt : Rat) (s : State) :
    (pid e dt s).servo .v =
      (s.servo .v).driven s.cfg .v (driveDir s.cfg (pidOutput s.cfg s.ctl e dt)) (driveMag (pidOutput s.cfg s.ctl e dt)) := rfl

theorem exec_pidStep_zero (e : Int) (s : State) : exec (.pidStep e 0) s = .next (raise .dtZero s) := rfl

theorem exec_pidStep_enabled {n : Nat} {s : State} (hn : n ≠ 0) (h : s.ctl.enabled = true) (e : Int) :
    exec (.pidStep e n) s = .next (respond (pidResponse e (dtOf s.cfg n) s) (pid e (dtOf s.cfg n) s)) := by
  simp [exec, execPidStep, answer, hn, h]

theorem exec_pidStep_disabled {n : Nat} {s : State} (hn : n ≠ 0) (h : s.ctl.enabled = false) (e : Int) :
    exec (.pidStep e n) s = .next (respond .ctrlIdle s) := by
  simp [exec, execPidStep, answer, hn, h]

/-- What a `PID_STEP` can do: raise `DT_ZERO`, run the datapath, or answer that control is off (R158). -/
theorem exec_pidStep_cases {e : Int} {n : Nat} {s t : State} (h : exec (.pidStep e n) s = .next t) :
    t = raise .dtZero s ∨ t = respond (pidResponse e (dtOf s.cfg n) s) (pid e (dtOf s.cfg n) s) ∨ t = respond .ctrlIdle s := by
  by_cases hn : n = 0
  · subst hn; cases h; exact .inl rfl
  cases hen : s.ctl.enabled with
  | true => cases (exec_pidStep_enabled hn hen e).symm.trans h; exact .inr (.inl rfl)
  | false => cases (exec_pidStep_disabled hn hen e).symm.trans h; exact .inr (.inr rfl)

/-- Settles O37: the datapath of the model is that of the rules, formula by formula. -/
theorem pidStepResult : Obligations.PidStepResult := fun e n s hc hn hen =>
  ⟨_, pidOf_pid hc e (dtOf s.cfg n), exec_pidStep_enabled hn hen e⟩

/-- Settles O43: the step is the datapath of the rules, whose integral and sum are known inside the deadzone. -/
theorem deadzoneStep : Obligations.DeadzoneStep := by
  intro e n s hinv hn hen hdz
  obtain ⟨t, ⟨b, -, ht⟩, hexec⟩ := pidStepResult e n s hinv.cfg hn hen
  have hge := hinv.ctl.integ_ge
  have hle := hinv.ctl.integ_le
  have hintegral : t.ctl.integ = s.ctl.integ := by rw [ht]; exact integAfter_of_deadzone hge hle hdz _
  have hmotion : t.motionComplete = true := by rw [ht]; exact if_pos hdz
  have hresp := congrArg State.resp ht
  rw [output, sumOutput_of_deadzone hge hle hdz] at hresp
  exact ⟨t, _, _, hexec, hintegral, hmotion, hresp⟩

/-! ### What a controller step reads (R167) -/

/-- Two controllers agree on the five fields that `pid` reads. -/
structure Controller.PidAgree (k k' : Controller) : Prop where
  kp : k.kp = k'.kp
  ki : k.ki = k'.ki
  kd : k.kd = k'.kd
  integ : k.integ = k'.integ
  prevErr : k.prevErr = k'.prevErr

theorem nextIntegral_congr {k k' : Controller} (h : k.PidAgree k') (c : Params) (e : Int) (dt : Rat) :
    nextIntegral c k e dt = nextIntegral c k' e dt := by
  rw [nextIntegral, nextIntegral, h.integ]

theorem rawOutput_congr {k k' : Controller} (h : k.PidAgree k') (c : Params) (e : Int) (dt : Rat) :
    rawOutput c k e dt = rawOutput c k' e dt := by
  simp only [rawOutput, derivativeTerm, nextIntegral_congr h, h.kp, h.ki, h.kd, h.prevErr]

theorem pidOutput_congr {k k' : Controller} (h : k.PidAgree k') (c : Params) (e : Int) (dt : Rat) :
    pidOutput c k e dt = pidOutput c k' e dt := by
  rw [pidOutput, pidOutput, rawOutput_congr h]

/-- Settles O41: the integral and the output are functions of the fields that agree, and the command, the response and the signal
are formed from them. -/
theorem pidDeterministic : Obligations.PidDeterministic := by
  intro e n s s' t t' hcfg hkp hki hkd hinteg hprev hen hen' h h'
  have hagree : s.ctl.PidAgree s'.ctl := ⟨hkp, hki, hkd, hinteg, hprev⟩
  by_cases hn : n = 0
  · subst hn
    rw [exec_pidStep_zero] at h h'
    cases h; cases h'
    exact ⟨rfl, absurd rfl⟩
  · rw [exec_pidStep_enabled hn hen] at h
    rw [exec_pidStep_enabled hn hen'] at h'
    cases h; cases h'
    have hout := pidOutput_congr hagree s'.cfg e (dtOf s'.cfg n)
    have hnext := nextIntegral_congr hagree s'.cfg e (dtOf s'.cfg n)
    refine ⟨?response, fun _ => ⟨?integral, rfl, ?mag, ?dir, ?off, ?on, ?width, fun hmotion => ?motion⟩⟩
    case response => simp [pidResponse, hcfg, hout]
    case integral => simp [hcfg, hnext]
    case motion => simp [hcfg, hmotion]
    all_goals simp [servo_pid_v, Servo.driven, hcfg, hout]

/-! ### The band of the integral (R152, R168) -/

/-- A `PID_STEP` leaves the parameters and keeps the integral in its band (R152). -/
theorem exec_pidStep_keeps_band {e : Int} {n : Nat} {s t : State} (h : exec (.pidStep e n) s = .next t) (hc : s.cfg.Valid)
    (hge : s.cfg.iMin ≤ s.ctl.integ) (hle : s.ctl.integ ≤ s.cfg.iMax) :
    t.cfg = s.cfg ∧ s.cfg.iMin ≤ t.ctl.integ ∧ t.ctl.integ ≤ s.cfg.iMax := by
  obtain ht | ht | ht := exec_pidStep_cases h
  · rw [ht]; exact ⟨rfl, hge, hle⟩
  · rw [ht, respond_cfg, respond_ctl, pid_cfg, pid_ctl, nextIntegral_eq]
    exact ⟨rfl, integAfter_mem hc s.ctl e (dtOf s.cfg n)⟩
  · rw [ht]; exact ⟨rfl, hge, hle⟩

/-- A run answers when its first operation does and the rest does from there (R66). -/
theorem runOps_cons_eq_some_iff {i : Instr} {rest : List Instr} {s t : State} :
    runOps (i :: rest) s = some t ↔ ∃ u, exec i s = .next u ∧ runOps rest u = some t := by
  rw [runOps]
  cases exec i s <;> simp

theorem runOps_pidSteps_keeps_band {steps : List (Int × Nat)} {s t : State}
    (h : runOps (steps.map fun x => .pidStep x.1 x.2) s = some t) (hc : s.cfg.Valid) (hge : s.cfg.iMin ≤ s.ctl.integ)
    (hle : s.ctl.integ ≤ s.cfg.iMax) : s.cfg.iMin ≤ t.ctl.integ ∧ t.ctl.integ ≤ s.cfg.iMax := by
  induction steps generalizing s with
  | nil => cases h; exact ⟨hge, hle⟩
  | cons x rest ih =>
    obtain ⟨u, hu, hrest⟩ := runOps_cons_eq_some_iff.mp h
    obtain ⟨hcfg, hge', hle'⟩ := exec_pidStep_keeps_band hu hc hge hle
    rw [← hcfg] at hc hge' hle' ⊢
    exact ih hrest hc hge' hle'

/-- Settles O42: every step keeps the band, and a value in the band is no larger than the larger of its ends. -/
theorem antiWindupBound : Obligations.AntiWindupBound := by
  intro steps s t hc hge hle hrun _
  obtain ⟨hge', hle'⟩ := runOps_pidSteps_keeps_band hrun hc hge hle
  refine ⟨hge', hle', ?_⟩
  rw [abs_mul]
  exact mul_le_mul_of_nonneg_left (abs_le_max_abs_abs hge' hle') (abs_nonneg _)

/-! ### The gain writes (R162 to R165) -/

theorem exec_setGain_of_some {k : Gain} {g : U32} {s : State} {q : Rat} (h : gainClamp s.cfg k (binary32 g) = some q) :
    exec (setGain k g) s = .next { s with ctl := withGain k q s.ctl, resp := .none } := by
  cases k
  case p => simp only [setGain, exec, execSetKp, h]; rfl
  case i => simp only [setGain, exec, execSetKi, h]; rfl
  case d => simp only [setGain, exec, execSetKd, h]; rfl

theorem exec_setGain_of_none {k : Gain} {g : U32} {s : State} (h : gainClamp s.cfg k (binary32 g) = none) :
    exec (setGain k g) s = .next (raise .operand s) := by
  cases k
  case p => simp only [setGain, exec, execSetKp, h]
  case i => simp only [setGain, exec, execSetKi, h]
  case d => simp only [setGain, exec, execSetKd, h]

/-- Settles O47: each operand class is one case of `gain_clamp`, which alone decides what a gain write does. -/
theorem gainWriteResult : Obligations.GainWriteResult := by
  intro k g s
  refine ⟨fun h => ?nan, fun h => ?posInf, fun h => ?negInf, fun q h => ?finite⟩
  case nan => exact exec_setGain_of_none (by rw [h]; rfl)
  case posInf => exact exec_setGain_of_some (by rw [h]; rfl)
  case negInf => exact exec_setGain_of_some (by rw [h]; rfl)
  case finite => exact exec_setGain_of_some (by rw [h]; rfl)

end Sys2Proof.Machine

namespace Sys2Proof.Machine

open Sys2Proof.Claims Sys2Proof.Safety

/-! ### `SET_MODE` (R191, R192) -/

theorem exec_setMode_same {mode : Nat} {s : State} (h : modeOf mode = some s.sup.mode) :
    exec (.setMode mode) s = .next (respond .none s) := by
  simp [exec, execSetMode, h, answer]

theorem exec_setMode_unnamed {mode : Nat} {s : State} (h : modeOf mode = none) :
    exec (.setMode mode) s = .next (respond .none s) := by
  simp [exec, execSetMode, h, answer]

theorem exec_setMode_other {mode : Nat} {m : Mode} {s : State} (h : modeOf mode = some m) (hne : m ≠ s.sup.mode) :
    exec (.setMode mode) s = .next (respond .none (enterMode m s)) := by
  simp [exec, execSetMode, h, hne, answer]

/-- The values 3 to 15 name no mode (R82). -/
theorem modeOf_of_three_le {mode : Nat} (h : 3 ≤ mode) : modeOf mode = none := by
  obtain ⟨n, rfl⟩ := Nat.exists_eq_add_of_le' h
  rfl

/-- Settles O49: the three cases of R191, one lemma each. -/
theorem setModeResult : Obligations.SetModeResult := by
  intro mode s
  refine ⟨?ignored, fun m hm hne => ?entered, rfl, rfl, rfl⟩
  case ignored =>
    rintro (hlarge | hsame)
    · exact exec_setMode_unnamed (modeOf_of_three_le hlarge)
    · exact exec_setMode_same hsame
  case entered => exact exec_setMode_other hm hne

/-! ### The Manual step (R194) -/

theorem Servo.driveOf_idle {c : Params} (hc : c.Valid) (a : Axis) (b : Servo) :
    DriveOf c a .idle 0 b (b.driven c a .idle 0) := Servo.driven_driveOf hc a .idle 0 b

@[simp] theorem manualCommand_axis (a : Axis) (btn sw : Bool) (c : Params) : (manualCommand a btn sw c).axis = a := by
  cases btn <;> rfl

/-- The bank that the Manual command of an axis leaves (R194). -/
def Servo.manual (b : Servo) (c : Params) (a : Axis) (btn sw : Bool) : Servo :=
  b.driven c a (manualCommand a btn sw c).dir (manualCommand a btn sw c).mag

theorem Servo.manual_driveOf {c : Params} (hc : c.Valid) (a : Axis) (btn sw : Bool) (b : Servo) :
    if btn then DriveOf c a (if sw then .forward else .reverse) (magOf c.manualMag) b (b.manual c a btn sw)
    else DriveOf c a .idle 0 b (b.manual c a btn sw) := by
  cases btn with
  | true => exact Servo.driven_driveOf hc a _ c.manualMag b
  | false => exact Servo.driveOf_idle hc a b

/-- The Idle that a disabling edge commands to the vertical axis (R161) is overwritten by the axis's own command (R194). -/
theorem applyDrive_both_setControl_false (dh dv : Dir) (mh mv : Int) (s : State) :
    applyDrive .v dv mv (applyDrive .h dh mh (setControl false s)) =
      { s with
        srv := ⟨s.srv.h.driven s.cfg .h dh mh, s.srv.v.driven s.cfg .v dv mv⟩
        ctl := { s.ctl with enabled := false } } := by
  cases h : s.ctl.enabled with
  | true => rw [setControl_disable h]; rfl
  | false =>
    have hsame : setControl false s = s := h ▸ setControl_same s
    rw [hsame, ← h]; rfl

theorem manualStep_eq (btnH btnV swH swV : Bool) (s : State) :
    manualStep btnH btnV swH swV s =
      { s with
        srv := ⟨s.srv.h.manual s.cfg .h btnH swH, s.srv.v.manual s.cfg .v btnV swV⟩
        ctl := { s.ctl with enabled := false } } := by
  rw [manualStep, manualAxis_eq, manualAxis_eq, DriveCommand.apply, DriveCommand.apply]
  simp only [manualCommand_axis, applyDrive_cfg, setControl_cfg]
  exact applyDrive_both_setControl_false _ _ _ _ s

theorem exec_supervisorStep_manual {s : State} (h : s.sup.mode = .manual) (btnH btnV swH swV : Bool) :
    exec (.supervisorStep btnH btnV swH swV) s = .next (respond .none (manualStep btnH btnV swH swV s)) := by
  simp [exec, execSupervisorStep, h, answer]

/-- Settles O50: the step is the two axes' commands, each bank R101's, with the gate cleared. -/
theorem manualStepResult : Obligations.ManualStepResult := by
  intro btnH btnV swH swV s hc hmode
  refine ⟨s.srv.h.manual s.cfg .h btnH swH, s.srv.v.manual s.cfg .v btnV swV, Servo.manual_driveOf hc .h btnH swH _,
    Servo.manual_driveOf hc .v btnV swV _, ?_⟩
  rw [exec_supervisorStep_manual hmode, manualStep_eq, respond]

/-! ### The sub-state programs (R195 to R197) -/

/-- Settles O51: each entry of a table is one equation of its program. -/
theorem programTables : Obligations.ProgramTables := fun _ => ⟨rfl, rfl⟩

/-- A sub-state of Calibration that is not IDLE is not the last one (R196). -/
theorem lt_of_calProgram_ne_idle {c : Params} {k : Fin 9} (h : calProgram c k ≠ .idle) : k.val + 1 < 9 := by
  by_contra hlast
  obtain rfl : k = 8 := by omega
  exact h rfl

/-- A sub-state of Automatic that is not IDLE is not the last one (R197). -/
theorem lt_of_autoProgram_ne_idle {c : Params} {k : Fin 21} (h : autoProgram c k ≠ .idle) : k.val + 1 < 21 := by
  by_contra hlast
  obtain rfl : k = 20 := by omega
  exact h rfl

/-! ### The advance of a counter (R198) -/

theorem nextSub_val {n : Nat} {k : Fin n} (h : k.val + 1 < n) : (nextSub k).val = k.val + 1 := by simp [nextSub, h]

/-- The supervisor state that an advance leaves (R198). -/
def Supervisor.advanced (u : Supervisor) : Supervisor :=
  match u.mode with
  | .manual => u
  | .calibration => { u with subCal := nextSub u.subCal }
  | .automatic => { u with subAuto := nextSub u.subAuto }

theorem advanceSub_eq_advanced (s : State) : advanceSub s = { s with sup := s.sup.advanced } := by
  cases h : s.sup.mode <;> simp [advanceSub, Supervisor.advanced, h]

@[simp] theorem Supervisor.advanced_mode (u : Supervisor) : u.advanced.mode = u.mode := by
  unfold Supervisor.advanced; split <;> rfl

/-- An advance neither reads nor writes the rotation counter (R198, R202). -/
theorem Supervisor.advanced_rotCount (u : Supervisor) (n : U32) :
    { u with rotCount := n }.advanced = { u.advanced with rotCount := n } := by
  cases h : u.mode <;> simp [Supervisor.advanced, h]

/-- `Advanced` says that the rotation counter is kept, so it also holds of a state whose new count is taken back. -/
theorem advanced_restore_rotCount {u u' : Supervisor} (h : Advanced u u') (n : U32) :
    Advanced u { { u' with rotCount := n } with rotCount := u.rotCount } := by
  obtain ⟨hmode, hman, -, hcounter, hauto, hcal⟩ := h
  exact ⟨hmode, hman, rfl, hcounter, hauto, hcal⟩

/-- Only the last sub-state of a program is IDLE, so every other kind's advance is one up (R198, R204). -/
theorem advanced_of_currentSub {s : State} {k : SubState} (h : currentSub s = some k) (hk : k ≠ .idle) :
    Advanced s.sup s.sup.advanced := by
  cases hm : s.sup.mode with
  | manual => simp [currentSub, hm] at h
  | calibration =>
    obtain rfl : calProgram s.cfg s.sup.subCal = k := by simpa [currentSub, hm] using h
    have hnext := nextSub_val (lt_of_calProgram_ne_idle hk)
    simp [Advanced, Supervisor.advanced, counter, hm, hnext]
  | automatic =>
    obtain rfl : autoProgram s.cfg s.sup.subAuto = k := by simpa [currentSub, hm] using h
    have hnext := nextSub_val (lt_of_autoProgram_ne_idle hk)
    simp [Advanced, Supervisor.advanced, counter, hm, hnext]

/-! ### One sub-state (R198 to R204) -/

theorem exec_supervisorStep_of_currentSub {s : State} {k : SubState} (h : currentSub s = some k) (btnH btnV swH swV : Bool) :
    exec (.supervisorStep btnH btnV swH swV) s = .next (respond .none (runSubState k s)) := by
  cases hm : s.sup.mode with
  | manual => simp [currentSub, hm] at h
  | calibration =>
    obtain rfl : calProgram s.cfg s.sup.subCal = k := by simpa [currentSub, hm] using h
    simp [exec, execSupervisorStep, hm, answer]
  | automatic =>
    obtain rfl : autoProgram s.cfg s.sup.subAuto = k := by simpa [currentSub, hm] using h
    simp [exec, execSupervisorStep, hm, answer]

/-- A value between two s32 values is stored exactly (R8, R11). -/
theorem toInt_ofS32_clamp (x : Int) {lo hi : U32} (h : lo.toInt ≤ hi.toInt) :
    (ofS32 (clamp x lo.toInt hi.toInt)).toInt = clamp x lo.toInt hi.toInt :=
  BitVec.toInt_ofInt_eq_self (by decide) ((BitVec.le_toInt lo).trans (le_clamp x h))
    ((clamp_le x _ _).trans_lt BitVec.toInt_lt)

theorem runSubState_enable (s : State) :
    runSubState .enable s = { setControl true s with sup := s.sup.advanced } := by
  rw [runSubState, advanceSub_eq_advanced, setControl_sup]

theorem runSubState_disable (s : State) :
    runSubState .disable s = { setControl false s with sup := s.sup.advanced } := by
  rw [runSubState, advanceSub_eq_advanced, setControl_sup]

theorem runSubState_move (h : U32) (s : State) :
    runSubState (.move h) s =
      { s with
        ctl := { s.ctl with setpoint := ofS32 (clamp h.toInt s.cfg.spMin.toInt s.cfg.spMax.toInt) }
        motionComplete := false
        sup := s.sup.advanced } := by
  rw [runSubState, moveStep, advanceSub_eq_advanced]; rfl

theorem runSubState_wait_unset {s : State} (h : s.motionComplete = false) : runSubState .wait s = s := by
  simp [runSubState, waitStep, h]

theorem runSubState_wait_set {s : State} (h : s.motionComplete = true) :
    runSubState .wait s = { s with sup := s.sup.advanced } := by
  simp [runSubState, waitStep, h, advanceSub_eq_advanced]

theorem runSubState_rotStart (k : Fin 4) (s : State) :
    runSubState (.rotStart k) s =
      { s with
        srv := { s.srv with h := s.srv.h.driven s.cfg .h (s.cfg.rotDir.get k).toDir s.cfg.rotMag }
        sup := { s.sup.advanced with rotCount := ofU32 (s.cfg.rotSteps.get k) } } := by
  rw [runSubState, rotStartStep, advanceSub_eq_advanced, ← Supervisor.advanced_rotCount]; rfl

theorem runSubState_rotating_last {s : State} (h : s.sup.rotCount.toNat ≤ 1) :
    runSubState .rotating s =
      { s with
        srv := { s.srv with h := s.srv.h.driven s.cfg .h .idle 0 }
        sup := { s.sup.advanced with rotCount := 0 } } := by
  rw [runSubState, rotatingStep, if_pos h, advanceSub_eq_advanced, ← Supervisor.advanced_rotCount]; rfl

theorem runSubState_rotating_counts {s : State} (h : 1 < s.sup.rotCount.toNat) :
    runSubState .rotating s = { s with sup := { s.sup with rotCount := ofU32 (s.sup.rotCount.toNat - 1) } } := by
  rw [runSubState, rotatingStep, if_neg h.not_ge]

/-- Settles O52: each kind by its own equation, and the counter by `advanced_of_currentSub` for every kind but IDLE. -/
theorem subStateResult : Obligations.SubStateResult := by
  intro btnH btnV swH swV s kind hc hkind
  have hadv : kind ≠ .idle → Advanced s.sup s.sup.advanced := advanced_of_currentSub hkind
  rw [exec_supervisorStep_of_currentSub hkind]
  cases kind with
  | enable => exact ⟨_, _, rfl, hadv nofun, by rw [runSubState_enable]; rfl⟩
  | disable => exact ⟨_, _, rfl, hadv nofun, by rw [runSubState_disable]; rfl⟩
  | move h =>
    exact ⟨_, _, toInt_ofS32_clamp h.toInt hc.spMin_le, hadv nofun, by rw [runSubState_move]; rfl⟩
  | wait =>
    refine ⟨fun hunset => ?unset, fun hset => ⟨_, hadv nofun, ?set⟩⟩
    case unset => rw [runSubState_wait_unset hunset]; rfl
    case set => rw [runSubState_wait_set hset]; rfl
  | rotStart k =>
    exact ⟨_, { s.sup.advanced with rotCount := ofU32 (s.cfg.rotSteps.get k) },
      Servo.driven_driveOf hc .h _ s.cfg.rotMag s.srv.h, toNat_ofU32 (hc.rot_u32 k),
      advanced_restore_rotCount (hadv nofun) _, by rw [runSubState_rotStart]; rfl⟩
  | rotating =>
    refine ⟨fun hlast => ⟨_, { s.sup.advanced with rotCount := 0 }, Servo.driveOf_idle hc .h s.srv.h, rfl,
        advanced_restore_rotCount (hadv nofun) _, ?last⟩,
      fun hcount => ⟨ofU32 (s.sup.rotCount.toNat - 1), toNat_ofU32 (by omega), ?counts⟩⟩
    case last => rw [runSubState_rotating_last hlast]; rfl
    case counts => rw [runSubState_rotating_counts hcount]; rfl
  | idle => rfl

/-! ### Abandoned waits (R206) -/

theorem runSubState_mode (k : SubState) (s : State) : (runSubState k s).sup.mode = s.sup.mode := by
  cases k with
  | enable => simp [runSubState_enable]
  | disable => simp [runSubState_disable]
  | move h => simp [runSubState_move]
  | wait => cases h : s.motionComplete <;> simp [runSubState_wait_unset, runSubState_wait_set, h]
  | rotStart k => simp [runSubState_rotStart]
  | rotating =>
    obtain h | h := Nat.lt_or_ge 1 s.sup.rotCount.toNat
    · simp [runSubState_rotating_counts h]
    · simp [runSubState_rotating_last h]
  | idle => rfl

theorem currentSub_eq_none_iff {s : State} : currentSub s = none ↔ s.sup.mode = .manual := by
  unfold currentSub; split <;> simp_all

/-- A supervisor step completes in every state and leaves the mode (R33, R193). -/
theorem exec_supervisorStep_keeps_mode (btnH btnV swH swV : Bool) (s : State) :
    ∃ t, exec (.supervisorStep btnH btnV swH swV) s = .next t ∧ t.sup.mode = s.sup.mode := by
  cases hsub : currentSub s with
  | none =>
    have hmanual := exec_supervisorStep_manual (currentSub_eq_none_iff.mp hsub) btnH btnV swH swV
    exact ⟨_, hmanual, by rw [respond_sup, manualStep_eq]⟩
  | some k => exact ⟨_, exec_supervisorStep_of_currentSub hsub btnH btnV swH swV, runSubState_mode k s⟩

/-- A mode is entered at its first sub-state, which is ENABLE in both programs (R192, R196, R197). -/
theorem enterMode_starts (m : Mode) (s : State) :
    counter (enterMode m s).sup = 0 ∧ (m ≠ .manual → currentSub (enterMode m s) = some .enable) := by
  cases m with
  | manual => exact ⟨rfl, fun h => absurd rfl h⟩
  | calibration => exact ⟨rfl, fun _ => rfl⟩
  | automatic => exact ⟨rfl, fun _ => rfl⟩

/-- Settles O57: both changes of mode enter a mode other than the current one, the second because the supervisor step between
them leaves the mode. -/
theorem modeChangeRestarts : Obligations.ModeChangeRestarts := by
  intro mode back m s hmode hne hback
  have hthere := exec_setMode_other hmode hne
  obtain ⟨hcounter, hfirst⟩ := enterMode_starts m s
  refine ⟨⟨_, hthere, rfl, hcounter, rfl, hfirst⟩, fun _ => ?back⟩
  case back =>
    obtain ⟨t, hstep, hmodet⟩ := exec_supervisorStep_keeps_mode false false false false (respond .none (enterMode m s))
    have hleft : s.sup.mode ≠ t.sup.mode := by rw [hmodet]; exact hne.symm
    have hagain := exec_setMode_other hback hleft
    obtain ⟨hcounter', hfirst'⟩ := enterMode_starts s.sup.mode t
    have hrun : runOps [.setMode mode, .supervisorStep false false false false, .setMode back] s =
        some (respond .none (enterMode s.sup.mode t)) := by
      simp only [runOps, hthere, hstep, hagain]
    exact ⟨_, hrun, rfl, hcounter', hfirst'⟩

end Sys2Proof.Machine

namespace Sys2Proof.Machine

open Sys2Proof.Claims

/-! ### The parameters (R272)

No operation writes `cfg`: each answers one of the shared operations of the state, which all leave it. -/

/-- What a `CTRL_STEP` can do: raise `DT_ZERO`, run the datapath on the position error with the sample used up, or answer that it
has nothing to do (R159). -/
theorem exec_ctrlStep_cases {n : Nat} {s t : State} (h : exec (.ctrlStep n) s = .next t) :
    t = raise .dtZero s ∨
    t = respond (pidResponse (positionError s) (dtOf s.cfg n) s) (pid (positionError s) (dtOf s.cfg n) { s with posFresh := false }) ∨
    t = respond .ctrlIdle s := by
  simp only [exec, execCtrlStep] at h
  split at h
  · cases h; exact .inl rfl
  · split at h
    · cases h; exact .inr (.inl rfl)
    · cases h; exact .inr (.inr rfl)

/-- What a gain write can do: raise `OPERAND`, or write its gain (R165). -/
theorem exec_setGain_cases {k : Gain} {g : U32} {s t : State} (h : exec (setGain k g) s = .next t) :
    t = raise .operand s ∨ ∃ q, t = { s with ctl := withGain k q s.ctl, resp := .none } := by
  cases hclamp : gainClamp s.cfg k (binary32 g) with
  | none => cases (exec_setGain_of_none hclamp).symm.trans h; exact .inl rfl
  | some q => cases (exec_setGain_of_some hclamp).symm.trans h; exact .inr ⟨q, rfl⟩

/-- What a `SET_MODE` can do: nothing, or enter a mode (R191). -/
theorem exec_setMode_cases {mode : Nat} {s t : State} (h : exec (.setMode mode) s = .next t) :
    t = respond .none s ∨ ∃ m, t = respond .none (enterMode m s) := by
  cases hmode : modeOf mode with
  | none => cases (exec_setMode_unnamed hmode).symm.trans h; exact .inl rfl
  | some m =>
    by_cases hm : m = s.sup.mode
    · cases (exec_setMode_same (hm ▸ hmode)).symm.trans h; exact .inl rfl
    · cases (exec_setMode_other hmode hm).symm.trans h; exact .inr ⟨m, rfl⟩

/-- What a `SUPERVISOR_STEP` can do: a Manual step, or one sub-state of a program (R193). -/
theorem exec_supervisorStep_cases {btnH btnV swH swV : Bool} {s t : State}
    (h : exec (.supervisorStep btnH btnV swH swV) s = .next t) :
    t = respond .none (manualStep btnH btnV swH swV s) ∨ ∃ k, t = respond .none (runSubState k s) := by
  cases hsub : currentSub s with
  | none =>
    cases (exec_supervisorStep_manual (currentSub_eq_none_iff.mp hsub) btnH btnV swH swV).symm.trans h
    exact .inl rfl
  | some k => cases (exec_supervisorStep_of_currentSub hsub btnH btnV swH swV).symm.trans h; exact .inr ⟨k, rfl⟩

theorem manualStep_cfg (btnH btnV swH swV : Bool) (s : State) : (manualStep btnH btnV swH swV s).cfg = s.cfg := by
  rw [manualStep_eq]

theorem runSubState_cfg (k : SubState) (s : State) : (runSubState k s).cfg = s.cfg := by
  cases k with
  | enable => simp [runSubState_enable]
  | disable => simp [runSubState_disable]
  | move h => rw [runSubState_move]
  | wait => cases h : s.motionComplete <;> simp [runSubState_wait_unset, runSubState_wait_set, h]
  | rotStart k => rw [runSubState_rotStart]
  | rotating =>
    obtain h | h := Nat.lt_or_ge 1 s.sup.rotCount.toNat
    · rw [runSubState_rotating_counts h]
    · rw [runSubState_rotating_last h]
  | idle => rfl

theorem exec_setGain_cfg {k : Gain} {g : U32} {s t : State} (h : exec (setGain k g) s = .next t) : t.cfg = s.cfg := by
  obtain rfl | ⟨q, rfl⟩ := exec_setGain_cases h <;> rfl

/-- No operation writes a parameter (R272). -/
theorem exec_cfg {i : Instr} {s t : State} (h : exec i s = .next t) : t.cfg = s.cfg := by
  cases i with
  | setDrive | disableAll | sample | setSetpoint | getGains => cases h; rfl
  | tick => cases h; exact tick_cfg s
  | setControl en => cases h; exact setControl_cfg s en
  | pidStep e n => obtain rfl | rfl | rfl := exec_pidStep_cases h <;> simp
  | ctrlStep n => obtain rfl | rfl | rfl := exec_ctrlStep_cases h <;> simp
  | setKp g => exact exec_setGain_cfg (k := .p) h
  | setKi g => exact exec_setGain_cfg (k := .i) h
  | setKd g => exact exec_setGain_cfg (k := .d) h
  | setMode mode => obtain rfl | ⟨m, rfl⟩ := exec_setMode_cases h <;> rfl
  | supervisorStep btnH btnV swH swV =>
    obtain rfl | ⟨k, rfl⟩ := exec_supervisorStep_cases h
    · exact manualStep_cfg btnH btnV swH swV s
    · exact runSubState_cfg k s

/-- No step writes a parameter, whatever word it takes (R272). -/
theorem step_cfg {s t : State} (h : step s = .next t) : t.cfg = s.cfg := by
  obtain ⟨-, hstep⟩ | ⟨w, rest, i, -, -, hstep⟩ | ⟨w, rest, why, -, -, hstep⟩ := step_cases s
  · cases hstep.symm.trans h; rfl
  · exact (exec_cfg (hstep.symm.trans h)).trans rfl
  · cases hstep.symm.trans h; rfl

/-! ### Runs -/

/-- A run of one more step is a step that goes on, and a run from there. -/
theorem run_succ_eq_next_iff {k : Nat} {s t : State} :
    Sys2Proof.core.run (k + 1) s = .next t ↔ ∃ u, step s = .next u ∧ Sys2Proof.core.run k u = .next t := by
  simp only [Host.Core.run, core]
  cases step s <;> simp

/-- A part of the state that no step changes is the same at the end of a run. -/
theorem run_keeps {α : Type} {f : State → α} (hf : ∀ {s t : State}, step s = .next t → f t = f s) {k : Nat} {s t : State}
    (h : Sys2Proof.core.run k s = .next t) : f t = f s := by
  induction k generalizing s with
  | zero => cases h; rfl
  | succ k ih =>
    obtain ⟨u, hstep, hrun⟩ := run_succ_eq_next_iff.mp h
    exact (ih hrun).trans (hf hstep)

/-- Settles O11: the case split of a step over its operations, and the induction over the steps of a run. -/
theorem parametersFixed : Obligations.ParametersFixed :=
  ⟨fun _ _ h => step_cfg h, fun _ _ _ hrun _ => run_keeps (f := State.cfg) step_cfg hrun⟩

/-! ### The state after reset (R271) -/

@[simp] theorem resetWith_servo (c : Params) (a : Axis) : (State.resetWith c).servo a = Servo.reset c a := by
  cases a <;> rfl

@[simp] theorem resetWith_channel (c : Params) (a : Axis) : (State.resetWith c).channel a = Channel.reset c a := by
  cases a <;> rfl

theorem resetWith_gain (c : Params) (k : Gain) : (State.resetWith c).ctl.gain k = c.gainReset.get k := by
  cases k <;> rfl

/-- Settles O13: every field is read off `State.resetWith`, per axis and per gain; the first supervisor step is that of the
Manual mode. -/
theorem resetState : Obligations.ResetState := by
  refine ⟨rfl, ?manual, rfl, rfl, rfl, resetWith_gain _, rfl, fun a => ?axis, rfl, rfl, rfl, rfl, rfl, status_reset _⟩
  case manual => exact exec_supervisorStep_manual rfl
  case axis =>
    rw [State.reset, resetWith_servo, resetWith_channel]
    exact ⟨rfl, rfl, rfl, rfl, rfl, rfl, rfl, rfl, rfl, rfl⟩

end Sys2Proof.Machine

namespace Sys2Proof

open Sys2Proof.Machine Sys2Proof.Claims

/-! ### Decoder and encoder invert each other (R82, R85, R89)

Each row is read field by field: the decoder's view of a row's operands and the encoder's are inverse on the fields that are not
zero. -/

theorem decode_eq_ok_iff {w : CmdWord} {i : Instr} :
    decode w = .ok i ↔ (fieldsOf w).opc = i.opcode.byte ∧ decodeFields i.opcode (fieldsOf w) = .ok i := by
  constructor
  · intro h
    unfold decode at h
    split at h
    · cases h
    next op hop =>
      obtain rfl := decodeFields_opcode h
      exact ⟨(Opcode.byte_of_ofByte hop).symm, h⟩
  · rintro ⟨hopc, h⟩
    simp [decode, hopc, h]

/-- The encoder puts every operation's code in OPC (R84). -/
theorem Instr.fields_opc (i : Instr) : i.fields.opc = i.opcode.byte := by cases i <;> rfl

/-- An s32 operand is stored exactly (R8, R82). -/
theorem toInt_ofInt_of_fitsS32 {x : Int} (h : fitsS32 x = true) : (BitVec.ofInt 32 x).toInt = x := by
  obtain ⟨hlow, hhigh⟩ : -2 ^ 31 ≤ x ∧ x < 2 ^ 31 := by simpa [fitsS32] using h
  exact BitVec.toInt_ofInt_eq_self (by decide) hlow hhigh

/-- A `dt` count is stored exactly (R82). -/
theorem toNat_ofNat_of_fitsU16 {n : Nat} (h : fitsU16 n = true) : (BitVec.ofNat 16 n).toNat = n := by
  rw [BitVec.toNat_ofNat, Nat.mod_eq_of_lt (by simpa [fitsU16] using h)]

/-- A mode operand is stored exactly (R82). -/
theorem toNat_ofNat_of_fitsU4 {n : Nat} (h : fitsU4 n = true) : (BitVec.ofNat 4 n).toNat = n := by
  rw [BitVec.toNat_ofNat, Nat.mod_eq_of_lt (by simpa [fitsU4] using h)]

theorem fitsS32_toInt (x : BitVec 32) : fitsS32 x.toInt = true := by
  simpa [fitsS32] using And.intro (BitVec.le_toInt x) (BitVec.toInt_lt (x := x))

theorem fitsU16_toNat (x : BitVec 16) : fitsU16 x.toNat = true := by simpa [fitsU16] using x.isLt

theorem fitsU4_toNat (x : BitVec 4) : fitsU4 x.toNat = true := by simpa [fitsU4] using x.isLt

/-- The four levels are read back from FA (R82, R91). -/
theorem getLsbD_inputsToField (btnH btnV swH swV : Bool) :
    (inputsToField btnH btnV swH swV).getLsbD 0 = btnH ∧ (inputsToField btnH btnV swH swV).getLsbD 1 = btnV ∧
      (inputsToField btnH btnV swH swV).getLsbD 2 = swH ∧ (inputsToField btnH btnV swH swV).getLsbD 3 = swV := by
  revert btnH btnV swH swV; decide

theorem inputsToField_getElem (b : BitVec 4) : inputsToField b[0] b[1] b[2] b[3] = b := by
  revert b; decide

theorem Axis.toField_of_ofField {b : BitVec 4} {a : Axis} (h : Axis.ofField b = some a) : a.toField = b := by
  revert a b; decide

theorem Dir.toField_of_ofField {b : BitVec 4} {d : Dir} (h : Dir.ofField b = some d) : d.toField = b := by
  revert d b; decide

theorem enableToField_of_enableOfField {b : BitVec 4} {en : Bool} (h : enableOfField b = some en) : enableToField en = b := by
  revert en b; decide

/-- Each row reads back the fields that the encoder wrote (R82, R85). -/
theorem decodeFields_fields {i : Instr} (h : i.wellFormed = true) : decodeFields i.opcode i.fields = .ok i := by
  cases i with
  | setDrive a d mag =>
    have hmag : (BitVec.ofInt 32 mag).toInt = mag := toInt_ofInt_of_fitsS32 h
    simp [Instr.opcode, Instr.fields, decodeFields, decodeSetDrive_eq_ok_iff, hmag]
  | pidStep errIn n =>
    obtain ⟨herr, hn⟩ := Bool.and_eq_true_iff.mp h
    simp only [Instr.opcode, Instr.fields, decodeFields, toInt_ofInt_of_fitsS32 herr, toNat_ofNat_of_fitsU16 hn]
    rfl
  | ctrlStep n =>
    simp only [Instr.opcode, Instr.fields, decodeFields, toNat_ofNat_of_fitsU16 h]
    rfl
  | setSetpoint sp =>
    simp only [Instr.opcode, Instr.fields, decodeFields, toInt_ofInt_of_fitsS32 h]
    rfl
  | setControl en => simp [Instr.opcode, Instr.fields, decodeFields, decodeSetControl_eq_ok_iff]
  | setMode mode =>
    simp only [Instr.opcode, Instr.fields, decodeFields, toNat_ofNat_of_fitsU4 h]
    rfl
  | supervisorStep btnH btnV swH swV =>
    obtain ⟨h0, h1, h2, h3⟩ := getLsbD_inputsToField btnH btnV swH swV
    simp only [Instr.opcode, Instr.fields, decodeFields, h0, h1, h2, h3]
    rfl
  | disableAll | tick | sample | setKp | setKi | setKd | getGains => rfl

/-- Settles O1: the word's fields are the operation's, and its row reads them back. -/
theorem decodeOfEncode : Obligations.DecodeOfEncode := fun i h => by
  rw [encode, decode_eq_ok_iff, fieldsOf_wordOf]
  exact ⟨i.fields_opc, decodeFields_fields h⟩

/-- The fields a row keeps are those of the operation that it reads, whose operands fit, and the others are zero (R82, R85). -/
theorem fields_of_decodeFields {f : Fields} {i : Instr} (hopc : f.opc = i.opcode.byte) (h : decodeFields i.opcode f = .ok i) :
    i.wellFormed = true ∧ i.fields = f := by
  obtain ⟨opc, fa, fb, h16, imm⟩ := f
  cases i with
  | setDrive a d mag =>
    obtain ⟨hzero, hok⟩ := requireZero_eq_ok_iff.mp h
    obtain ⟨a', d', ha, hd, hi⟩ := decodeSetDrive_eq_ok_iff.mp hok
    cases hi
    simp_all [Instr.opcode, Instr.fields, Instr.wellFormed, fitsS32_toInt, Axis.toField_of_ofField ha, Dir.toField_of_ofField hd]
  | setControl en =>
    obtain ⟨hzero, hok⟩ := requireZero_eq_ok_iff.mp h
    obtain ⟨en', hen, hi⟩ := decodeSetControl_eq_ok_iff.mp hok
    cases hi
    simp_all [Instr.opcode, Instr.fields, Instr.wellFormed, enableToField_of_enableOfField hen]
  | _ =>
    obtain ⟨hzero, hok⟩ := requireZero_eq_ok_iff.mp h
    cases hok
    simp_all [Instr.opcode, Instr.fields, Instr.wellFormed, fitsS32_toInt, fitsU16_toNat, fitsU4_toNat, inputsToField_getElem]

/-- Settles O2: the operation's fields are those of the word, and a word is its fields. -/
theorem encodeOfDecode : Obligations.EncodeOfDecode := fun w i h => by
  obtain ⟨hopc, hok⟩ := decode_eq_ok_iff.mp h
  obtain ⟨hwf, hfields⟩ := fields_of_decodeFields hopc hok
  exact ⟨hwf, by rw [encode, hfields, wordOf_fieldsOf]⟩

/-! ### The step at a given word (R65, R66) -/

/-- A command word is its own table word (R61). -/
theorem tableWord_toNat (w : CmdWord) : tableWord 64 w.toNat = w := by
  rw [tableWord, Nat.mod_eq_of_lt w.isLt, BitVec.ofNat_toNat, BitVec.setWidth_eq]

theorem step_of_decode_ok {s : State} {w : CmdWord} {rest : List CmdWord} {i : Instr} (hport : s.port = w :: rest)
    (h : decode w = .ok i) : step s = exec i { s with port := rest } := by
  simp [step, fetch, hport, h]

theorem step_of_decode_error {s : State} {w : CmdWord} {rest : List CmdWord} {why : DecodeError} (hport : s.port = w :: rest)
    (h : decode w = .error why) : step s = .next (raise .illegal { s with port := rest }) := by
  simp [step, fetch, hport, h, rejectWord]

/-- Settles O8: the first clause is the step at a word that decodes, the second the word of a well-formed operation, which does. -/
theorem stepRunsDecoded : Obligations.StepRunsDecoded := by
  refine ⟨fun s w rest i hport h => step_of_decode_ok hport h, fun s i h => ?_⟩
  have hword : (s.withFetchWord 64 (encode i).toNat).port = encode i :: s.port := by
    rw [State.withFetchWord, tableWord_toNat]
  exact step_of_decode_ok hword (decodeOfEncode i h)

end Sys2Proof

namespace Sys2Proof.Machine

open Sys2Proof.Claims Sys2Proof.Safety

/-! ### What the operations of several layers write -/

theorem setControl_true_of_enabled {s : State} (h : s.ctl.enabled = true) : setControl true s = s := h ▸ setControl_same s

theorem setControl_false_of_disabled {s : State} (h : s.ctl.enabled = false) : setControl false s = s := h ▸ setControl_same s

/-- `set_control(en)` writes banks and controller only (R161). -/
theorem setControl_frame (en : Bool) (s : State) : ∃ srv ctl, setControl en s = { s with srv := srv, ctl := ctl } := by
  cases en with
  | true =>
    cases h : s.ctl.enabled with
    | true => exact ⟨_, _, setControl_true_of_enabled h⟩
    | false => exact ⟨_, _, setControl_enable h⟩
  | false =>
    cases h : s.ctl.enabled with
    | true => exact ⟨_, _, setControl_disable h⟩
    | false => exact ⟨_, _, setControl_false_of_disabled h⟩

/-- A sub-state writes banks, controller, signal and supervisor only (R198). -/
theorem runSubState_frame (k : SubState) (s : State) :
    ∃ srv ctl mc sup, runSubState k s = { s with srv := srv, ctl := ctl, motionComplete := mc, sup := sup } := by
  cases k with
  | enable =>
    obtain ⟨srv, ctl, h⟩ := setControl_frame true s
    exact ⟨srv, ctl, _, _, by rw [runSubState_enable, h]⟩
  | disable =>
    obtain ⟨srv, ctl, h⟩ := setControl_frame false s
    exact ⟨srv, ctl, _, _, by rw [runSubState_disable, h]⟩
  | move h => exact ⟨_, _, _, _, runSubState_move h s⟩
  | wait =>
    cases h : s.motionComplete with
    | false => exact ⟨_, _, _, _, runSubState_wait_unset h⟩
    | true => exact ⟨_, _, _, _, runSubState_wait_set h⟩
  | rotStart k => exact ⟨_, _, _, _, runSubState_rotStart k s⟩
  | rotating =>
    obtain h | h := Nat.lt_or_ge 1 s.sup.rotCount.toNat
    · exact ⟨_, _, _, _, runSubState_rotating_counts h⟩
    · exact ⟨_, _, _, _, runSubState_rotating_last h⟩
  | idle => exact ⟨_, _, _, _, rfl⟩

/-- A `SUPERVISOR_STEP` writes banks, controller, signal and supervisor only, and responds None (R193). -/
theorem exec_supervisorStep_frame {btnH btnV swH swV : Bool} {s t : State}
    (h : exec (.supervisorStep btnH btnV swH swV) s = .next t) :
    ∃ srv ctl mc sup, t = { s with srv := srv, ctl := ctl, motionComplete := mc, sup := sup, resp := .none } := by
  obtain rfl | ⟨k, rfl⟩ := exec_supervisorStep_cases h
  · exact ⟨_, _, _, _, by rw [manualStep_eq]; rfl⟩
  · obtain ⟨srv, ctl, mc, sup, hk⟩ := runSubState_frame k s
    exact ⟨srv, ctl, mc, sup, by rw [hk]; rfl⟩

/-- A gain write writes the controller or an error bit only, and responds (R162 to R165). -/
theorem exec_setGain_frame {k : Gain} {g : U32} {s t : State} (h : exec (setGain k g) s = .next t) :
    ∃ ctl err resp, t = { s with ctl := ctl, err := err, resp := resp } := by
  obtain rfl | ⟨q, rfl⟩ := exec_setGain_cases h
  · exact ⟨_, _, _, rfl⟩
  · exact ⟨_, _, _, rfl⟩

/-- An operation but `SAMPLE` leaves the filter, and no such operation makes a position fresh (R130, R159). -/
theorem exec_flt {i : Instr} {s t : State} (h : exec i s = .next t) (hi : ∀ raw, i ≠ .sample raw) :
    t.flt = s.flt ∧ (t.posFresh = true → s.posFresh = true) := by
  cases i with
  | sample raw => exact absurd rfl (hi raw)
  | setDrive | disableAll | setSetpoint | getGains => cases h; exact ⟨rfl, id⟩
  | tick => cases h; simp
  | setControl en => cases h; simp
  | pidStep e n => obtain rfl | rfl | rfl := exec_pidStep_cases h <;> simp
  | ctrlStep n => obtain rfl | rfl | rfl := exec_ctrlStep_cases h <;> simp
  | setKp g => obtain ⟨_, _, _, rfl⟩ := exec_setGain_frame (k := .p) h; exact ⟨rfl, id⟩
  | setKi g => obtain ⟨_, _, _, rfl⟩ := exec_setGain_frame (k := .i) h; exact ⟨rfl, id⟩
  | setKd g => obtain ⟨_, _, _, rfl⟩ := exec_setGain_frame (k := .d) h; exact ⟨rfl, id⟩
  | setMode mode => obtain rfl | ⟨m, rfl⟩ := exec_setMode_cases h <;> exact ⟨rfl, id⟩
  | supervisorStep btnH btnV swH swV => obtain ⟨_, _, _, _, rfl⟩ := exec_supervisorStep_frame h; exact ⟨rfl, id⟩

/-- A tick writes the phase and the count only (R105). -/
theorem Servo.ticked_eq_withPhaseOf (b : Servo) : b.ticked = b.withPhaseOf b.ticked := by
  obtain ⟨hmag, hdir, hon, hoff, hactive, hidle⟩ := b.ticked_tickOf.command
  calc b.ticked
      = ⟨b.ticked.idlePw, b.ticked.activePw, b.ticked.onPeriod, b.ticked.offPeriod, b.ticked.elapsed, b.ticked.driveActive,
          b.ticked.cmdDir, b.ticked.cmdMag⟩ := rfl
    _ = b.withPhaseOf b.ticked := by rw [hmag, hdir, hon, hoff, hactive, hidle]; rfl

@[simp] theorem applyAll_out (ds : List DriveCommand) (s : State) : (applyAll ds s).out = s.out := by
  induction ds generalizing s with
  | nil => rfl
  | cons d ds ih => exact ih (d.apply s)

@[simp] theorem applyAll_estop (ds : List DriveCommand) (s : State) : (applyAll ds s).estop = s.estop := by
  induction ds generalizing s with
  | nil => rfl
  | cons d ds ih => exact ih (d.apply s)

end Sys2Proof.Machine

namespace Sys2Proof.Safety

open Sys2Proof.Claims Sys2Proof.Machine

/-! ### The invariants of the banks and the outputs (R23 to R26)

These four parts of `Inv` read only the parameters, the banks, the outputs and `estop`, which a drive command, a tick and a stop
write. -/

/-- The part of the invariants that speaks of banks and outputs. -/
structure DrivesInv (s : State) : Prop where
  cfg : s.cfg.Valid
  bank : ∀ a, BankInv s.cfg a (s.servo a)
  width : ∀ a, widthOfAxis s.cfg a (s.channel a).pw
  enable : ∀ a, (s.channel a).en = !s.estop

theorem Inv.drives {s : State} (h : Inv s) : DrivesInv s := ⟨h.cfg, h.bank, h.width, h.enable⟩

theorem DrivesInv.congr {s t : State} (h : DrivesInv s) (hcfg : t.cfg = s.cfg) (hsrv : t.srv = s.srv) (hout : t.out = s.out)
    (hestop : t.estop = s.estop) : DrivesInv t := by
  obtain ⟨hc, hbank, hwidth, henable⟩ := h
  refine ⟨hcfg ▸ hc, fun a => ?_, fun a => ?_, fun a => ?_⟩
  · rw [hcfg, State.servo, hsrv]; exact hbank a
  · rw [hcfg, State.channel, hout]; exact hwidth a
  · rw [State.channel, hout, hestop]; exact henable a

/-- The range of the count and of an on phase in progress (R25, R105). -/
structure PhaseInv (c : Params) (b : Servo) : Prop where
  elapsed : b.elapsed.toNat ≤ max c.onTicks c.frameTicks
  elapsed_on : b.driveActive = true → b.elapsed.toNat < c.onTicks

/-- A bank that keeps its command takes the range of its phase from the tick. -/
theorem BankInv.withPhaseOf {c : Params} {a : Axis} {b b' : Servo} (h : BankInv c a b) (h' : PhaseInv c b') :
    BankInv c a (b.withPhaseOf b') := { h with elapsed := h'.elapsed, elapsed_on := h'.elapsed_on }

/-- A tick of a bank with the on period of the parameters and an off period of at most a frame keeps the count in range,
whatever the magnitude and the widths are (R105). -/
theorem phaseInv_ticked {c : Params} {b : Servo} (hc : c.Valid) (hon : b.onPeriod.toNat = c.onTicks)
    (hoff : b.offPeriod.toNat ≤ c.frameTicks) : PhaseInv c b.ticked := by
  have hpos := hc.on_pos
  have ht := b.ticked_tickOf
  cases hb : b.driveActive with
  | true =>
    rcases Nat.lt_or_ge (b.elapsed.toNat + 1) b.onPeriod.toNat with hlt | hle
    · obtain ⟨-, hcount⟩ := ht.on_counts hb hlt
      exact ⟨by omega, fun _ => by omega⟩
    · obtain ⟨-, hcount⟩ := ht.on_ends hb hle
      exact ⟨by omega, fun _ => by omega⟩
  | false =>
    rcases Nat.lt_or_ge (b.elapsed.toNat + 1) b.offPeriod.toNat with hlt | hle
    · obtain ⟨hphase, hcount⟩ := ht.off_counts hb hlt
      exact ⟨by omega, by simp [hphase]⟩
    · by_cases hmag : b.cmdMag.toNat = 0
      · obtain ⟨hphase, hcount⟩ := ht.off_holds hb hle hmag
        exact ⟨by rw [hcount]; omega, by simp [hphase]⟩
      · obtain ⟨-, hcount⟩ := ht.off_ends hb hle hmag
        exact ⟨by omega, fun _ => by omega⟩

theorem BankInv.offPeriod_le {c : Params} {a : Axis} {b : Servo} (h : BankInv c a b) : b.offPeriod.toNat ≤ c.frameTicks :=
  h.off_period.trans_le (offTicks_le_frameTicks c _)

theorem BankInv.ticked {c : Params} {a : Axis} {b : Servo} (h : BankInv c a b) (hc : c.Valid) : BankInv c a b.ticked := by
  rw [b.ticked_eq_withPhaseOf]
  exact h.withPhaseOf (phaseInv_ticked hc h.on_period h.offPeriod_le)

/-- A drive command leaves a bank whose command is R101's and whose phase is the old one. -/
theorem BankInv.driven {c : Params} {a : Axis} {b : Servo} (h : BankInv c a b) (hc : c.Valid) (dir : Dir) (m : Int) :
    BankInv c a (b.driven c a dir m) := by
  have hd := Servo.driven_driveOf hc a dir m b
  exact
    { idle_pw := h.idle_pw
      on_period := hd.on_period
      cmd_mag := hd.cmd_mag.trans_le (magOf_le m)
      off_period := hd.off_period.trans (by rw [hd.cmd_mag]; rfl)
      active_pw := rfl
      elapsed := h.elapsed
      elapsed_on := h.elapsed_on }

/-- The width of a bank is its active width or the idle one, so it is one of its axis (R106). -/
theorem widthOfAxis_width {c : Params} {a : Axis} {b : Servo} (hidle : b.idlePw = c.pwIdle.get a)
    (hactive : widthOfAxis c a b.activePw) : widthOfAxis c a b.width := by
  unfold Servo.width
  split
  · exact hactive
  · exact ⟨.idle, hidle⟩

theorem DrivesInv.apply {s : State} (h : DrivesInv s) (d : DriveCommand) : DrivesInv (d.apply s) := by
  refine { h with bank := fun a => ?_ }
  by_cases ha : a = d.axis
  · subst ha
    rw [DriveCommand.apply, servo_applyDrive_self]
    exact (h.bank d.axis).driven h.cfg d.dir d.mag
  · rw [DriveCommand.apply, servo_applyDrive_ne s d.dir d.mag ha]
    exact h.bank a

theorem DrivesInv.applyAll {s : State} (h : DrivesInv s) (ds : List DriveCommand) : DrivesInv (applyAll ds s) := by
  induction ds generalizing s with
  | nil => exact h
  | cons d ds ih => exact ih (h.apply d)

theorem DrivesInv.tick {s : State} (h : DrivesInv s) : DrivesInv (tick s) := by
  cases hs : s.estop with
  | true => rw [tick_stopped hs]; exact h
  | false =>
    refine ⟨by rw [tick_cfg]; exact h.cfg, fun a => ?_, fun a => ?_, fun a => ?_⟩
    · rw [tick_cfg, servo_tick_running hs]
      exact (h.bank a).ticked h.cfg
    · have hb := (h.bank a).ticked h.cfg
      rw [tick_cfg, channel_tick_pw hs]
      exact widthOfAxis_width hb.idle_pw ⟨_, hb.active_pw⟩
    · rw [channel_tick_en, tick_estop]
      exact h.enable a

theorem DrivesInv.disableAll {s : State} (h : DrivesInv s) : DrivesInv (disableAll s) :=
  { cfg := h.cfg
    bank := h.bank
    width := fun a => by rw [channel_disableAll_pw]; exact h.width a
    enable := fun a => by rw [channel_disableAll]; rfl }

theorem exec_keeps_drivesInv {i : Instr} {s t : State} (h : exec i s = .next t) (hs : DrivesInv s) : DrivesInv t := by
  by_cases htick : i = .tick
  · subst htick; cases h
    exact hs.tick.congr rfl rfl rfl rfl
  by_cases hstop : i = .disableAll
  · subst hstop; cases h
    exact hs.disableAll.congr rfl rfl rfl rfl
  obtain ⟨hsrv, hout⟩ := exec_drives h htick hstop
  exact (hs.applyAll (driveCommands i s)).congr (by rw [exec_cfg h, applyAll_cfg]) hsrv (by rw [hout, applyAll_out])
    (by rw [exec_estop h hstop, applyAll_estop])

end Sys2Proof.Safety

namespace Sys2Proof.Machine

/-! ### What an advance leaves (R198) -/

theorem Supervisor.advanced_subMan (u : Supervisor) : u.advanced.subMan = u.subMan := by
  unfold Supervisor.advanced; split <;> rfl

theorem Supervisor.rotCount_advanced (u : Supervisor) : u.advanced.rotCount = u.rotCount := by
  unfold Supervisor.advanced; split <;> rfl

theorem Supervisor.advanced_subCal {u : Supervisor} (h : u.mode ≠ .calibration) : u.advanced.subCal = u.subCal := by
  cases hm : u.mode with
  | calibration => exact absurd hm h
  | manual | automatic => simp [Supervisor.advanced, hm]

theorem Supervisor.advanced_subAuto {u : Supervisor} (h : u.mode ≠ .automatic) : u.advanced.subAuto = u.subAuto := by
  cases hm : u.mode with
  | automatic => exact absurd hm h
  | manual | calibration => simp [Supervisor.advanced, hm]

end Sys2Proof.Machine

namespace Sys2Proof.Safety

open Sys2Proof.Claims Sys2Proof.Machine

/-! ### The invariants of the controller (R31) -/

/-- The band, the setpoint range and the gain ranges do not speak of the gate and of the previous error. -/
theorem CtlInv.congr {c : Params} {k k' : Controller} (h : CtlInv c k) (hinteg : k'.integ = k.integ)
    (hsetpoint : k'.setpoint = k.setpoint) (hgain : ∀ g, k'.gain g = k.gain g) : CtlInv c k' where
  integ_ge := hinteg ▸ h.integ_ge
  integ_le := hinteg ▸ h.integ_le
  setpoint_ge := hsetpoint ▸ h.setpoint_ge
  setpoint_le := hsetpoint ▸ h.setpoint_le
  gain_ge g := hgain g ▸ h.gain_ge g
  gain_le g := hgain g ▸ h.gain_le g

theorem CtlInv.with_integ {c : Params} {k : Controller} (h : CtlInv c k) {x : Rat} (hge : c.iMin ≤ x) (hle : x ≤ c.iMax)
    (e : Int) : CtlInv c { k with integ := x, prevErr := e } :=
  { h with integ_ge := hge, integ_le := hle, gain_ge := h.gain_ge, gain_le := h.gain_le }

theorem CtlInv.with_setpoint {c : Params} {k : Controller} (h : CtlInv c k) {x : U32} (hge : c.spMin.toInt ≤ x.toInt)
    (hle : x.toInt ≤ c.spMax.toInt) : CtlInv c { k with setpoint := x } :=
  { h with setpoint_ge := hge, setpoint_le := hle, gain_ge := h.gain_ge, gain_le := h.gain_le }

theorem gain_withGain_self (k : Gain) (q : Rat) (c : Controller) : (withGain k q c).gain k = q := by cases k <;> rfl

theorem gain_withGain_ne {g k : Gain} (h : g ≠ k) (q : Rat) (c : Controller) : (withGain k q c).gain g = c.gain g := by
  match g, k, h with
  | .p, .i, _ | .p, .d, _ | .i, .p, _ | .i, .d, _ | .d, .p, _ | .d, .i, _ => rfl
  | .p, .p, h | .i, .i, h | .d, .d, h => exact absurd rfl h

theorem CtlInv.withGain {c : Params} {k : Controller} (h : CtlInv c k) (g : Gain) {q : Rat} (hge : c.gainMin.get g ≤ q)
    (hle : q ≤ c.gainMax.get g) : CtlInv c (withGain g q k) := by
  have hgain (g' : Gain) :
      c.gainMin.get g' ≤ (Claims.withGain g q k).gain g' ∧ (Claims.withGain g q k).gain g' ≤ c.gainMax.get g' := by
    by_cases hg : g' = g
    · subst hg; rw [gain_withGain_self]; exact ⟨hge, hle⟩
    · rw [gain_withGain_ne hg]; exact ⟨h.gain_ge g', h.gain_le g'⟩
  cases g <;> exact
    { integ_ge := h.integ_ge, integ_le := h.integ_le, setpoint_ge := h.setpoint_ge, setpoint_le := h.setpoint_le
      gain_ge := fun g' => (hgain g').1, gain_le := fun g' => (hgain g').2 }

/-- A stored gain is in its range (R165). -/
theorem gainClamp_mem {c : Params} (hc : c.Valid) {k : Gain} {x : Machine.Float32} {q : Rat} (h : gainClamp c k x = some q) :
    c.gainMin.get k ≤ q ∧ q ≤ c.gainMax.get k := by
  have hle := hc.gain_le k
  cases x with
  | nan => cases h
  | posInf => cases h; exact ⟨hle, le_rfl⟩
  | negInf => cases h; exact ⟨le_rfl, hle⟩
  | finite q => cases h; exact ⟨le_clamp q hle, clamp_le q _ _⟩

/-- `pid` keeps the band (R152). -/
theorem ctlInv_pid {s : State} (hc : s.cfg.Valid) (h : CtlInv s.cfg s.ctl) (e : Int) (dt : Rat) :
    CtlInv s.cfg (pid e dt s).ctl := by
  obtain ⟨hge, hle⟩ := integAfter_mem hc s.ctl e dt
  rw [pid_ctl, nextIntegral_eq]
  exact h.with_integ hge hle e

/-- A setpoint is stored clamped to its range (R160, R201). -/
theorem ctlInv_postSetpoint {s : State} (hc : s.cfg.Valid) (h : CtlInv s.cfg s.ctl) (sp : Int) :
    CtlInv s.cfg (postSetpoint sp s).ctl := by
  have hstored := toInt_ofS32_clamp sp hc.spMin_le
  exact h.with_setpoint (hstored.symm ▸ le_clamp sp hc.spMin_le) (hstored.symm ▸ clamp_le sp _ _)

/-- An enabling edge clears the integral or leaves it; 0 lies in the band (R161). -/
theorem ctlInv_setControl {s : State} (hc : s.cfg.Valid) (h : CtlInv s.cfg s.ctl) (en : Bool) :
    CtlInv s.cfg (setControl en s).ctl := by
  have hclear : CtlInv s.cfg (onEnable s).ctl := by
    unfold onEnable
    split
    · exact h.with_integ hc.iMin_le hc.le_iMax 0
    · exact h
  have hgate {k : Controller} (hk : CtlInv s.cfg k) (b : Bool) : CtlInv s.cfg { k with enabled := b } :=
    hk.congr rfl rfl fun g => by cases g <;> rfl
  cases en with
  | true =>
    cases hen : s.ctl.enabled with
    | true => rw [setControl_true_of_enabled hen]; exact h
    | false => rw [setControl_enable hen]; exact hgate hclear true
  | false =>
    cases hen : s.ctl.enabled with
    | true => rw [setControl_disable hen]; exact hgate h false
    | false => rw [setControl_false_of_disabled hen]; exact h

theorem ctlInv_runSubState {s : State} (hc : s.cfg.Valid) (h : CtlInv s.cfg s.ctl) (k : SubState) :
    CtlInv s.cfg (runSubState k s).ctl := by
  cases k with
  | enable => rw [runSubState_enable]; exact ctlInv_setControl hc h true
  | disable => rw [runSubState_disable]; exact ctlInv_setControl hc h false
  | move x => rw [runSubState_move]; exact ctlInv_postSetpoint hc h x.toInt
  | wait =>
    cases hmc : s.motionComplete with
    | false => rw [runSubState_wait_unset hmc]; exact h
    | true => rw [runSubState_wait_set hmc]; exact h
  | rotStart k => rw [runSubState_rotStart]; exact h
  | rotating =>
    obtain hlt | hle := Nat.lt_or_ge 1 s.sup.rotCount.toNat
    · rw [runSubState_rotating_counts hlt]; exact h
    · rw [runSubState_rotating_last hle]; exact h
  | idle => exact h

theorem ctlInv_manualStep {s : State} (h : CtlInv s.cfg s.ctl) (btnH btnV swH swV : Bool) :
    CtlInv s.cfg (manualStep btnH btnV swH swV s).ctl := by
  rw [manualStep_eq]
  exact h.congr rfl rfl fun g => by cases g <;> rfl

theorem exec_setGain_keeps_ctlInv {k : Gain} {g : U32} {s t : State} (h : exec (setGain k g) s = .next t) (hc : s.cfg.Valid)
    (hs : CtlInv s.cfg s.ctl) : CtlInv s.cfg t.ctl := by
  cases hclamp : gainClamp s.cfg k (binary32 g) with
  | none => cases (exec_setGain_of_none hclamp).symm.trans h; exact hs
  | some q =>
    obtain ⟨hge, hle⟩ := gainClamp_mem hc hclamp
    cases (exec_setGain_of_some hclamp).symm.trans h
    exact hs.withGain k hge hle

/-- Every operation keeps the ranges of R31. -/
theorem exec_keeps_ctlInv {i : Instr} {s t : State} (h : exec i s = .next t) (hc : s.cfg.Valid) (hs : CtlInv s.cfg s.ctl) :
    CtlInv s.cfg t.ctl := by
  cases i with
  | setDrive | disableAll | sample | getGains => cases h; exact hs
  | tick => cases h; rw [respond_ctl, tick_ctl]; exact hs
  | pidStep e n =>
    obtain rfl | rfl | rfl := exec_pidStep_cases h
    · exact hs
    · exact ctlInv_pid hc hs e (dtOf s.cfg n)
    · exact hs
  | ctrlStep n =>
    obtain rfl | rfl | rfl := exec_ctrlStep_cases h
    · exact hs
    · exact ctlInv_pid (s := { s with posFresh := false }) hc hs (positionError s) (dtOf s.cfg n)
    · exact hs
  | setSetpoint sp => cases h; exact ctlInv_postSetpoint hc hs sp
  | setControl en => cases h; exact ctlInv_setControl hc hs en
  | setKp g => exact exec_setGain_keeps_ctlInv (k := .p) h hc hs
  | setKi g => exact exec_setGain_keeps_ctlInv (k := .i) h hc hs
  | setKd g => exact exec_setGain_keeps_ctlInv (k := .d) h hc hs
  | setMode mode => obtain rfl | ⟨m, rfl⟩ := exec_setMode_cases h <;> exact hs
  | supervisorStep btnH btnV swH swV =>
    obtain rfl | ⟨k, rfl⟩ := exec_supervisorStep_cases h
    · exact ctlInv_manualStep hs btnH btnV swH swV
    · exact ctlInv_runSubState hc hs k

/-! ### The invariants of the supervisor (R34, R191, R192, R202)

The rotation counter runs in a ROTATING sub-state only. In both programs a ROTATING sub-state stands after each ROT_START and
nowhere else. -/

theorem calProgram_ne_rotating (c : Params) (k : Fin 9) : calProgram c k ≠ .rotating := by
  unfold calProgram; split <;> simp

theorem calProgram_ne_rotStart (c : Params) (k : Fin 9) (r : Fin 4) : calProgram c k ≠ .rotStart r := by
  unfold calProgram; split <;> simp

theorem autoProgram_eq_rotating_iff (c : Params) (k : Fin 21) :
    autoProgram c k = .rotating ↔ k = 4 ∨ k = 8 ∨ k = 12 ∨ k = 16 := by
  fin_cases k <;> simp [autoProgram]

theorem autoProgram_nextSub_eq_rotating_iff (c : Params) (k : Fin 21) :
    autoProgram c (nextSub k) = .rotating ↔ ∃ r, autoProgram c k = .rotStart r := by
  fin_cases k <;> simp [autoProgram, nextSub]

/-- The supervisor is in a rotation exactly at a ROTATING sub-state (R197). -/
theorem atRotating_iff (s : State) : atRotating s.sup = true ↔ currentSub s = some .rotating := by
  cases h : s.sup.mode <;>
    simp [atRotating, currentSub, h, calProgram_ne_rotating, autoProgram_eq_rotating_iff, or_assoc]

/-- An advance enters a rotation exactly from a ROT_START (R197, R198). -/
theorem atRotating_advanced_iff {s : State} {k : SubState} (h : currentSub s = some k) :
    atRotating s.sup.advanced = true ↔ ∃ r, k = .rotStart r := by
  rw [atRotating_iff { s with sup := s.sup.advanced }]
  cases hm : s.sup.mode with
  | manual => simp [currentSub, hm] at h
  | calibration =>
    obtain rfl : calProgram s.cfg s.sup.subCal = k := by simpa [currentSub, hm] using h
    simp [currentSub, Supervisor.advanced, hm, calProgram_ne_rotating, calProgram_ne_rotStart]
  | automatic =>
    obtain rfl : autoProgram s.cfg s.sup.subAuto = k := by simpa [currentSub, hm] using h
    simp [currentSub, Supervisor.advanced, hm, autoProgram_nextSub_eq_rotating_iff]

/-- An advance moves the current mode's counter only, and what rotation counter it leaves must match where it arrives. -/
theorem SupInv.advanced {u : Supervisor} (h : SupInv u) {n : U32} (hn : 0 < n.toNat ↔ atRotating u.advanced = true) :
    SupInv { u.advanced with rotCount := n } := by
  refine ⟨u.advanced_subMan.trans h.sub_man, fun hm => ?cal, fun hm => ?auto, hn⟩
  case cal =>
    have hm' : u.mode ≠ .calibration := u.advanced_mode ▸ hm
    exact (Supervisor.advanced_subCal hm').trans (h.sub_cal hm')
  case auto =>
    have hm' : u.mode ≠ .automatic := u.advanced_mode ▸ hm
    exact (Supervisor.advanced_subAuto hm').trans (h.sub_auto hm')

theorem SupInv.with_rotCount {u : Supervisor} (h : SupInv u) {n : U32} (hn : 0 < n.toNat ↔ atRotating u = true) :
    SupInv { u with rotCount := n } := ⟨h.sub_man, h.sub_cal, h.sub_auto, hn⟩

/-- A mode is entered outside a rotation with every counter at 0 (R192). -/
theorem supInv_enterMode (m : Mode) (s : State) : SupInv (enterMode m s).sup := by
  exact ⟨rfl, fun _ => rfl, fun _ => rfl, by simp [atRotating]⟩

/-- Every sub-state leaves the counter matching where it arrives (R202). -/
theorem supInv_runSubState {s : State} (hc : s.cfg.Valid) (h : SupInv s.sup) {k : SubState} (hk : currentSub s = some k) :
    SupInv (runSubState k s).sup := by
  have hhere : 0 < s.sup.rotCount.toNat ↔ k = .rotating := by
    rw [h.rot_count, atRotating_iff, hk, Option.some_inj]
  have hthere := atRotating_advanced_iff hk
  have hplain (hrot : k ≠ .rotating) (hstart : ∀ r, k ≠ .rotStart r) : SupInv s.sup.advanced := by
    refine h.advanced (n := s.sup.advanced.rotCount) ?_
    simp [s.sup.rotCount_advanced, hhere, hthere, hrot, hstart]
  cases k with
  | enable => rw [runSubState_enable]; exact hplain nofun nofun
  | disable => rw [runSubState_disable]; exact hplain nofun nofun
  | move x => rw [runSubState_move]; exact hplain nofun nofun
  | wait =>
    cases hmc : s.motionComplete with
    | false => rw [runSubState_wait_unset hmc]; exact h
    | true => rw [runSubState_wait_set hmc]; exact hplain nofun nofun
  | rotStart r =>
    rw [runSubState_rotStart]
    refine h.advanced ?_
    have hpos := hc.rot_pos r
    simp only [toNat_ofU32 (hc.rot_u32 r), hthere]
    exact ⟨fun _ => ⟨r, rfl⟩, fun _ => hpos⟩
  | rotating =>
    obtain hlt | hle := Nat.lt_or_ge 1 s.sup.rotCount.toNat
    · rw [runSubState_rotating_counts hlt]
      refine h.with_rotCount ?_
      rw [toNat_ofU32 (by omega), atRotating_iff, hk]
      simp [hlt]
    · rw [runSubState_rotating_last hle]
      exact h.advanced (by simp [hthere])
  | idle => exact h

/-- Only `SET_MODE` and `SUPERVISOR_STEP` write the supervisor (R33 to R36). -/
theorem exec_sup {i : Instr} {s t : State} (h : exec i s = .next t) (hmode : ∀ m, i ≠ .setMode m)
    (hstep : ∀ btnH btnV swH swV, i ≠ .supervisorStep btnH btnV swH swV) : t.sup = s.sup := by
  cases i with
  | setDrive | disableAll | sample | getGains | setSetpoint => cases h; rfl
  | tick => cases h; exact tick_sup s
  | setControl en => cases h; exact setControl_sup s en
  | pidStep e n => obtain rfl | rfl | rfl := exec_pidStep_cases h <;> simp
  | ctrlStep n => obtain rfl | rfl | rfl := exec_ctrlStep_cases h <;> simp
  | setKp g => obtain ⟨_, _, _, rfl⟩ := exec_setGain_frame (k := .p) h; rfl
  | setKi g => obtain ⟨_, _, _, rfl⟩ := exec_setGain_frame (k := .i) h; rfl
  | setKd g => obtain ⟨_, _, _, rfl⟩ := exec_setGain_frame (k := .d) h; rfl
  | setMode mode => exact absurd rfl (hmode mode)
  | supervisorStep btnH btnV swH swV => exact absurd rfl (hstep btnH btnV swH swV)

theorem exec_keeps_supInv {i : Instr} {s t : State} (h : exec i s = .next t) (hc : s.cfg.Valid) (hs : SupInv s.sup) :
    SupInv t.sup := by
  by_cases hmode : ∃ m, i = .setMode m
  · obtain ⟨m, rfl⟩ := hmode
    obtain rfl | ⟨m, rfl⟩ := exec_setMode_cases h
    · exact hs
    · exact supInv_enterMode m s
  by_cases hstep : ∃ btnH btnV swH swV, i = .supervisorStep btnH btnV swH swV
  · obtain ⟨btnH, btnV, swH, swV, rfl⟩ := hstep
    cases hsub : currentSub s with
    | none =>
      cases (exec_supervisorStep_manual (currentSub_eq_none_iff.mp hsub) btnH btnV swH swV).symm.trans h
      rw [respond_sup, manualStep_eq]
      exact hs
    | some k =>
      cases (exec_supervisorStep_of_currentSub hsub btnH btnV swH swV).symm.trans h
      exact supInv_runSubState hc hs hsub
  · rw [exec_sup h (by simpa using hmode) (by simpa using hstep)]
    exact hs

/-! ### The invariants of the block -/

/-- A fresh position comes from a sample, and every sample primes the filter (R130). -/
theorem exec_keeps_fresh {i : Instr} {s t : State} (h : exec i s = .next t) (hs : s.posFresh = true → s.flt.primed = true) :
    t.posFresh = true → t.flt.primed = true := by
  by_cases hi : ∃ raw, i = .sample raw
  · obtain ⟨raw, rfl⟩ := hi
    cases h
    exact fun _ => Filter.primed_sampled s.cfg s.flt raw
  · obtain ⟨hflt, hfresh⟩ := exec_flt h (by simpa using hi)
    exact fun ht => hflt ▸ hs (hfresh ht)

theorem exec_keeps_inv {i : Instr} {s t : State} (h : exec i s = .next t) (hs : Inv s) : Inv t := by
  have hdrives := exec_keeps_drivesInv h hs.drives
  have hctl : CtlInv t.cfg t.ctl := exec_cfg h ▸ exec_keeps_ctlInv h hs.cfg hs.ctl
  exact ⟨hdrives.cfg, hdrives.bank, hdrives.width, hdrives.enable, hctl, exec_keeps_supInv h hs.cfg hs.sup,
    exec_keeps_fresh h hs.fresh⟩

/-- The invariants do not speak of the command port, the error bits and the response. -/
theorem Inv.with_port_err_resp {s : State} (h : Inv s) (port : List CmdWord) (err : ErrBits) (resp : Response) :
    Inv { s with port := port, err := err, resp := resp } := by
  obtain ⟨hcfg, hbank, hwidth, henable, hctl, hsup, hfresh⟩ := h
  exact ⟨hcfg, hbank, hwidth, henable, hctl, hsup, hfresh⟩

/-- Settles O15: a step is an operation on the state without its word, or an error, which writes nothing the invariants read. -/
theorem stepKeepsInv : Obligations.StepKeepsInv := by
  intro s t hs h
  obtain ⟨-, hstep⟩ | ⟨w, rest, i, -, -, hstep⟩ | ⟨w, rest, why, -, -, hstep⟩ := step_cases s
  · cases hstep.symm.trans h; exact hs
  · exact exec_keeps_inv (hstep.symm.trans h) (hs.with_port_err_resp rest s.err s.resp)
  · cases hstep.symm.trans h; exact hs.with_port_err_resp rest _ _

end Sys2Proof.Safety

namespace Sys2Proof.Safety

open Sys2Proof.Claims Sys2Proof.Machine

/-! ### The invariants after reset, and the ranges they give (R23, R25, R31) -/

theorem inv_resetWith {c : Params} (hc : c.Valid) : Inv (State.resetWith c) where
  cfg := hc
  bank a := by
    rw [resetWith_servo]
    exact
      { idle_pw := rfl
        on_period := toNat_ofU32 hc.on_u32
        cmd_mag := Nat.zero_le 100
        off_period := (toNat_ofU32 hc.frame_u32).trans (offTicks_zero c).symm
        active_pw := rfl
        elapsed := Nat.zero_le _
        elapsed_on := nofun }
  width a := ⟨.idle, by rw [resetWith_channel]; rfl⟩
  enable a := by rw [resetWith_channel]; rfl
  ctl :=
    { integ_ge := hc.iMin_le
      integ_le := hc.le_iMax
      setpoint_ge := hc.spReset_ge
      setpoint_le := hc.spReset_le
      gain_ge := fun g => by rw [resetWith_gain]; exact hc.gainReset_ge g
      gain_le := fun g => by rw [resetWith_gain]; exact hc.gainReset_le g }
  sup := ⟨rfl, fun _ => rfl, fun _ => rfl, by simp [State.resetWith, atRotating]⟩
  fresh := nofun

/-- Settles O14: the block at hand carries the proof that its parameters meet R7. -/
theorem resetMeetsInv : Obligations.ResetMeetsInv :=
  ⟨fun _ hc => inv_resetWith hc, inv_resetWith Config.deployed.valid⟩

/-- The off phase fills the frame exactly at magnitude 0 (R25, R102). -/
theorem offTicks_eq_frameTicks_iff {c : Params} (hc : c.Valid) (m : Nat) : offTicks c m = c.frameTicks ↔ m = 0 := by
  refine ⟨fun h => by_contra fun hm => ?_, fun h => h ▸ offTicks_zero c⟩
  have hframe := hc.frame_pos
  have hless : (100 - m) * c.frameTicks < 100 * c.frameTicks := Nat.mul_lt_mul_of_pos_right (by omega) hframe
  have hquot : offTicks c m < c.frameTicks := Nat.div_lt_of_lt_mul hless
  omega

theorem BankInv.offPeriod_eq_frameTicks_iff {c : Params} {a : Axis} {b : Servo} (h : BankInv c a b) (hc : c.Valid) :
    b.offPeriod.toNat = c.frameTicks ↔ b.cmdMag.toNat = 0 := by
  rw [h.off_period, offTicks_eq_frameTicks_iff hc]

theorem pwSelect_mem (c : Params) (a : Axis) (dir : Dir) :
    pwSelect c a dir = c.pwIdle.get a ∨ pwSelect c a dir = c.pwFwd.get a ∨ pwSelect c a dir = c.pwRev.get a := by
  cases dir with
  | idle => exact .inl rfl
  | forward => exact .inr (.inl rfl)
  | reverse => exact .inr (.inr rfl)

/-- Settles O16: the ranges are parts of the invariants, but for the off period, which is `off_ticks` of the magnitude. -/
theorem invGivesStatedRanges : Obligations.InvGivesStatedRanges := by
  intro s h
  have hctl := h.ctl
  refine ⟨fun a => ?bank, ⟨hctl.integ_ge, hctl.integ_le⟩, ⟨hctl.setpoint_ge, hctl.setpoint_le⟩,
    fun k => ⟨hctl.gain_ge k, hctl.gain_le k⟩⟩
  case bank =>
    have hb := h.bank a
    exact ⟨hb.on_period, hb.offPeriod_le, hb.offPeriod_eq_frameTicks_iff h.cfg, hb.active_pw ▸ pwSelect_mem _ _ _, hb.elapsed⟩

end Sys2Proof.Safety

namespace Sys2Proof.Machine

open Sys2Proof.Claims Sys2Proof.Safety

/-! ### Operations with one effect (R108, R158 to R161, R166) -/

/-- Settles O25: the operation is the stop with the response None. -/
theorem disableAllResult : Obligations.DisableAllResult := fun _ => rfl

/-- Settles O48: the operation responds and does nothing else. -/
theorem getGainsResult : Obligations.GetGainsResult := fun _ => rfl

theorem exec_ctrlStep_zero (s : State) : exec (.ctrlStep 0) s = .next (raise .dtZero s) := rfl

theorem exec_ctrlStep_fresh {n : Nat} {s : State} (hn : n ≠ 0) (hen : s.ctl.enabled = true) (hfresh : s.posFresh = true) :
    exec (.ctrlStep n) s =
      .next (respond (pidResponse (positionError s) (dtOf s.cfg n) s)
        (pid (positionError s) (dtOf s.cfg n) { s with posFresh := false })) := by
  simp [exec, execCtrlStep, answer, hn, hen, hfresh]

theorem exec_ctrlStep_idle {n : Nat} {s : State} (hn : n ≠ 0) (h : s.ctl.enabled = false ∨ s.posFresh = false) :
    exec (.ctrlStep n) s = .next (respond .ctrlIdle s) := by
  rcases h with h | h <;> simp [exec, execCtrlStep, answer, hn, h]

/-- Settles O40: a count of 0 is asked for before anything else. -/
theorem zeroCountRaises : Obligations.ZeroCountRaises := fun e s => ⟨exec_pidStep_zero e s, exec_ctrlStep_zero s⟩

/-- Settles O39: with a count that is not 0 both operations ask for the gate, and `CTRL_STEP` for a fresh sample. -/
theorem controllerIdle : Obligations.ControllerIdle := fun e _ _ hn =>
  ⟨fun h => exec_pidStep_disabled hn h e, fun h => exec_ctrlStep_idle hn h⟩

/-- Settles O38: the datapath of the model is that of the rules, on the state whose sample is used up. -/
theorem ctrlStepResult : Obligations.CtrlStepResult := fun n s hc hn hen hfresh =>
  ⟨_, pidOf_pid (s := { s with posFresh := false }) hc (positionError s) (dtOf s.cfg n), exec_ctrlStep_fresh hn hen hfresh⟩

/-- Settles O45: the clamped value lies between two s32 values, so it is stored exactly. -/
theorem setSetpointResult : Obligations.SetSetpointResult := fun sp s hc =>
  ⟨ofS32 (clamp sp s.cfg.spMin.toInt s.cfg.spMax.toInt), rfl, toInt_ofS32_clamp sp hc.spMin_le⟩

/-- Settles O46: a repeated value, the enabling edge and the disabling edge. -/
theorem setControlResult : Obligations.SetControlResult := by
  intro s
  refine ⟨?same, fun h => ?enable, fun h hc => ⟨_, Servo.driveOf_idle hc .v s.srv.v, ?disable⟩⟩
  case same => rw [exec, execSetControl, setControl_same]; rfl
  case enable =>
    rw [exec, execSetControl, setControl_enable h, onEnable]
    cases s.cfg.pidClearOnEnable <;> rfl
  case disable => rw [exec, execSetControl, setControl_disable h]; rfl

/-! ### A later sample (R130, R136) -/

/-- The median of a window lies below every bound of its slots. -/
theorem Window.median_lt (w : Window) : w.median < 2 ^ 32 := by
  have h0 := (w.get 0).isLt
  have h1 := (w.get 1).isLt
  have h2 := (w.get 2).isLt
  simp only [median, median3]
  omega

/-- The low-pass of the median fits in 32 bits, so it is stored exactly (R133). -/
theorem Filter.toNat_y_advanced {c : Params} (hc : c.Valid) (f : Filter) (raw : U32) :
    (f.advanced c raw).y.toNat = lowpass c (f.advanced c raw).win.median f.y.toNat :=
  toNat_ofU32 (lowpass_lt_of_lt_of_lt hc (Window.median_lt _) f.y.isLt)

theorem Window.get_set (w : Window) (i j : Fin 3) (x : U32) : (w.set i x).get j = if j = i then x else w.get j := by
  split
  case isTrue h => rw [h, get_set_self]
  case isFalse h => exact w.get_set_ne x h

/-- Settles O31: a primed filter advances. -/
theorem laterSampleFilters : Obligations.LaterSampleFilters := by
  intro raw s hc hprimed
  refine ⟨s.flt.advanced s.cfg raw, ?_, hprimed, Fin.val_add _ _, fun j => s.flt.win.get_set s.flt.cursor j raw,
    Filter.toNat_y_advanced hc s.flt raw⟩
  rw [exec_sample, Filter.sampled_of_primed hprimed]

/-- The low-pass of a median at the position leaves the position (R136). -/
theorem lowpass_self {c : Params} (hc : c.Valid) (m : Nat) : lowpass c m m = m := by
  obtain ⟨hlow, hhigh⟩ := lowpass_mem hc m m
  omega

/-- Two slots beside the cursor at `v` make `v` the median after any sample (R136). -/
theorem Filter.median_advanced_of_others {f : Filter} {v : U32} (h : ∀ j, j ≠ f.cursor → f.win.get j = v) (c : Params)
    (x : U32) : (f.advanced c x).win.median = v.toNat := by
  have hne : f.cursor + 1 ≠ f.cursor ∧ f.cursor + 2 ≠ f.cursor ∧ f.cursor + 1 ≠ f.cursor + 2 := by
    generalize f.cursor = i; revert i; decide
  obtain ⟨hone, htwo, hdistinct⟩ := hne
  exact Window.median_of_two hdistinct ((f.win.get_set_ne x hone).trans (h _ hone)) ((f.win.get_set_ne x htwo).trans (h _ htwo))

/-- Settles O34: the two surviving slots outvote the spike, and two equal spikes outvote the survivor. -/
theorem spikeRejected : Obligations.SpikeRejected := by
  refine ⟨fun s v x hc hprimed hothers hy => ?rejected, fun v x => ⟨?_, ?_, median3_repeat x v⟩⟩
  case rejected =>
    have hposition : (s.flt.advanced s.cfg x).y = v := by
      apply BitVec.eq_of_toNat_eq
      rw [Filter.toNat_y_advanced hc, Filter.median_advanced_of_others hothers, hy, lowpass_self hc]
    refine ⟨_, exec_sample x s, ?_, ?_⟩ <;> simp only [Filter.sampled_of_primed hprimed, hposition]
  · rw [median3_swap_left, median3_swap_right, median3_repeat]
  · rw [median3_swap_right, median3_repeat]

end Sys2Proof.Machine

namespace Sys2Proof.Machine

open Sys2Proof.Claims Sys2Proof.Safety

/-! ### Every operation answers (R242, R247) -/

theorem exec_setGain_answers (k : Gain) (g : U32) (s : State) : ∃ t, exec (setGain k g) s = .next t := by
  cases h : gainClamp s.cfg k (binary32 g) with
  | none => exact ⟨_, exec_setGain_of_none h⟩
  | some q => exact ⟨_, exec_setGain_of_some h⟩

theorem exec_setMode_answers (mode : Nat) (s : State) : ∃ t, exec (.setMode mode) s = .next t := by
  cases h : modeOf mode with
  | none => exact ⟨_, exec_setMode_unnamed h⟩
  | some m =>
    by_cases hm : m = s.sup.mode
    · exact ⟨_, exec_setMode_same (hm ▸ h)⟩
    · exact ⟨_, exec_setMode_other h hm⟩

theorem exec_pidStep_answers (e : Int) (n : Nat) (s : State) : ∃ t, exec (.pidStep e n) s = .next t := by
  by_cases hn : n = 0
  · subst hn; exact ⟨_, exec_pidStep_zero e s⟩
  cases hen : s.ctl.enabled with
  | true => exact ⟨_, exec_pidStep_enabled hn hen e⟩
  | false => exact ⟨_, exec_pidStep_disabled hn hen e⟩

theorem exec_ctrlStep_answers (n : Nat) (s : State) : ∃ t, exec (.ctrlStep n) s = .next t := by
  by_cases hn : n = 0
  · subst hn; exact ⟨_, exec_ctrlStep_zero s⟩
  cases hen : s.ctl.enabled with
  | false => exact ⟨_, exec_ctrlStep_idle hn (.inl hen)⟩
  | true =>
    cases hfresh : s.posFresh with
    | false => exact ⟨_, exec_ctrlStep_idle hn (.inr hfresh)⟩
    | true => exact ⟨_, exec_ctrlStep_fresh hn hen hfresh⟩

theorem exec_answers (i : Instr) (s : State) : ∃ t, exec i s = .next t := by
  cases i with
  | setDrive | disableAll | tick | sample | setSetpoint | setControl | getGains => exact ⟨_, rfl⟩
  | pidStep e n => exact exec_pidStep_answers e n s
  | ctrlStep n => exact exec_ctrlStep_answers n s
  | setKp g => exact exec_setGain_answers .p g s
  | setKi g => exact exec_setGain_answers .i g s
  | setKd g => exact exec_setGain_answers .d g s
  | setMode mode => exact exec_setMode_answers mode s
  | supervisorStep btnH btnV swH swV =>
    obtain ⟨t, h, -⟩ := exec_supervisorStep_keeps_mode btnH btnV swH swV s
    exact ⟨t, h⟩

/-- Settles O9: a step is the identity, an error, which is a next state, or an operation, which answers. -/
theorem everyStepGoesOn : Obligations.EveryStepGoesOn := by
  intro s
  obtain ⟨-, hstep⟩ | ⟨w, rest, i, -, -, hstep⟩ | ⟨w, rest, why, -, -, hstep⟩ := step_cases s
  · exact ⟨s, hstep⟩
  · obtain ⟨t, ht⟩ := exec_answers i { s with port := rest }
    exact ⟨t, hstep.trans ht⟩
  · exact ⟨_, hstep⟩

/-! ### The command port (R66) -/

/-- No operation takes or adds a pending word. -/
theorem exec_port {i : Instr} {s t : State} (h : exec i s = .next t) : t.port = s.port := by
  cases i with
  | setDrive | disableAll | sample | setSetpoint | getGains => cases h; rfl
  | tick => cases h; exact tick_port s
  | setControl en => cases h; exact setControl_port s en
  | pidStep e n => obtain rfl | rfl | rfl := exec_pidStep_cases h <;> simp
  | ctrlStep n => obtain rfl | rfl | rfl := exec_ctrlStep_cases h <;> simp
  | setKp g => obtain ⟨_, _, _, rfl⟩ := exec_setGain_frame (k := .p) h; rfl
  | setKi g => obtain ⟨_, _, _, rfl⟩ := exec_setGain_frame (k := .i) h; rfl
  | setKd g => obtain ⟨_, _, _, rfl⟩ := exec_setGain_frame (k := .d) h; rfl
  | setMode mode => obtain rfl | ⟨m, rfl⟩ := exec_setMode_cases h <;> rfl
  | supervisorStep btnH btnV swH swV => obtain ⟨_, _, _, _, rfl⟩ := exec_supervisorStep_frame h; rfl

theorem step_of_port_nil {s : State} (h : s.port = []) : step s = .next s := by simp [step, fetch, h]

theorem step_port {s t : State} (h : step s = .next t) : t.port = s.port.tail := by
  obtain ⟨hport, hstep⟩ | ⟨w, rest, i, hport, -, hstep⟩ | ⟨w, rest, why, hport, -, hstep⟩ := step_cases s
  · cases hstep.symm.trans h; simp [hport]
  · rw [exec_port (hstep.symm.trans h), hport, List.tail_cons]
  · cases hstep.symm.trans h; rw [hport]; rfl

/-- Settles O10: a step takes the first word off the port, and no operation touches the others. -/
theorem oneWordPerStep : Obligations.OneWordPerStep := ⟨fun _ _ h => step_port h, fun _ h => step_of_port_nil h⟩

/-! ### Which operations raise an error (R241, R242) -/

/-- The operations that raise an error, in every state: a controller step with `dt` count 0 and a gain write with a NaN. -/
def Raises (i : Instr) : Prop :=
  (∃ e, i = .pidStep e 0) ∨ i = .ctrlStep 0 ∨ ∃ k g, i = setGain k g ∧ binary32 g = .nan

theorem gainClamp_eq_none_iff {c : Params} {k : Gain} {x : Machine.Float32} : gainClamp c k x = none ↔ x = .nan := by
  cases x <;> simp [gainClamp]

/-- A controller step with count 0 sets `err.dt` and a NaN gain `err.operand`, with no other effect (R158, R159, R165). -/
theorem exec_of_raises {i : Instr} (h : Raises i) (s : State) : ∃ e, exec i s = .next (raise e s) := by
  obtain ⟨e, rfl⟩ | rfl | ⟨k, g, rfl, hnan⟩ := h
  · exact ⟨.dtZero, exec_pidStep_zero e s⟩
  · exact ⟨.dtZero, exec_ctrlStep_zero s⟩
  · exact ⟨.operand, exec_setGain_of_none (gainClamp_eq_none_iff.mpr hnan)⟩

theorem exec_setGain_error_cases {k : Gain} {g : U32} {s t : State} (h : exec (setGain k g) s = .next t) :
    (t.err = s.err ∧ ∀ e, t.resp ≠ .err e) ∨ (t = raise .operand s ∧ binary32 g = .nan) := by
  cases hclamp : gainClamp s.cfg k (binary32 g) with
  | none => cases (exec_setGain_of_none hclamp).symm.trans h; exact .inr ⟨rfl, gainClamp_eq_none_iff.mp hclamp⟩
  | some q => cases (exec_setGain_of_some hclamp).symm.trans h; exact .inl ⟨rfl, nofun⟩

/-- What an operation does to the error bits: nothing and it responds no error, or it raises one error and does nothing else. -/
theorem exec_error_cases {i : Instr} {s t : State} (h : exec i s = .next t) :
    (t.err = s.err ∧ ∀ e, t.resp ≠ .err e) ∨
    (t = raise .dtZero s ∧ ((∃ e, i = .pidStep e 0) ∨ i = .ctrlStep 0)) ∨
    (t = raise .operand s ∧ ∃ k g, i = setGain k g ∧ binary32 g = .nan) := by
  cases i with
  | setDrive | disableAll | sample | setSetpoint | getGains => cases h; exact .inl ⟨rfl, nofun⟩
  | tick => cases h; exact .inl ⟨tick_err s, nofun⟩
  | setControl en => cases h; exact .inl ⟨setControl_err s en, nofun⟩
  | pidStep e n =>
    by_cases hn : n = 0
    · subst hn; cases h; exact .inr (.inl ⟨rfl, .inl ⟨e, rfl⟩⟩)
    cases hen : s.ctl.enabled with
    | true => cases (exec_pidStep_enabled hn hen e).symm.trans h; exact .inl (by simp [pidResponse])
    | false => cases (exec_pidStep_disabled hn hen e).symm.trans h; exact .inl ⟨rfl, nofun⟩
  | ctrlStep n =>
    by_cases hn : n = 0
    · subst hn; cases h; exact .inr (.inl ⟨rfl, .inr rfl⟩)
    by_cases hready : s.ctl.enabled = false ∨ s.posFresh = false
    · cases (exec_ctrlStep_idle hn hready).symm.trans h; exact .inl ⟨rfl, nofun⟩
    · obtain ⟨hen, hfresh⟩ : s.ctl.enabled = true ∧ s.posFresh = true := by simpa using hready
      cases (exec_ctrlStep_fresh hn hen hfresh).symm.trans h
      exact .inl (by simp [pidResponse])
  | setKp g => exact (exec_setGain_error_cases (k := .p) h).imp_right fun ⟨ht, hnan⟩ => .inr ⟨ht, .p, g, rfl, hnan⟩
  | setKi g => exact (exec_setGain_error_cases (k := .i) h).imp_right fun ⟨ht, hnan⟩ => .inr ⟨ht, .i, g, rfl, hnan⟩
  | setKd g => exact (exec_setGain_error_cases (k := .d) h).imp_right fun ⟨ht, hnan⟩ => .inr ⟨ht, .d, g, rfl, hnan⟩
  | setMode mode => obtain rfl | ⟨m, rfl⟩ := exec_setMode_cases h <;> exact .inl ⟨rfl, nofun⟩
  | supervisorStep btnH btnV swH swV => obtain ⟨_, _, _, _, rfl⟩ := exec_supervisorStep_frame h; exact .inl ⟨rfl, nofun⟩

/-- A word does not decode exactly when it is illegal (R86, R89). -/
theorem illegal_iff_decode_error (w : CmdWord) : illegal w ↔ ∃ why, decode w = .error why := by
  obtain ⟨op, -, -, hlegal, i, hi, -⟩ | ⟨-, hillegal, why, hwhy⟩ := wordsAreLegalOrIllegal w
  · simp [hlegal, hi]
  · exact ⟨fun _ => ⟨why, hwhy⟩, fun _ => hillegal⟩

theorem not_illegal_iff_decode_ok (w : CmdWord) : ¬ illegal w ↔ ∃ i, decode w = .ok i := by
  rw [illegal_iff_decode_error]
  cases decode w <;> simp

/-- Settles O4: an illegal word does not decode; another word runs its operation, which raises `DT_ZERO` or `OPERAND` at most. -/
theorem illegalWordsRaise : Obligations.IllegalWordsRaise := by
  intro s w rest hport
  refine ⟨fun h => ?illegal, fun h => ?legal⟩
  case illegal =>
    obtain ⟨why, hwhy⟩ := (illegal_iff_decode_error w).mp h
    exact step_of_decode_error hport hwhy
  case legal =>
    obtain ⟨i, hi⟩ := (not_illegal_iff_decode_ok w).mp h
    obtain ⟨t, ht⟩ := exec_answers i { s with port := rest }
    refine ⟨t, (step_of_decode_ok hport hi).trans ht, ?_⟩
    obtain ⟨herr, hresp⟩ | ⟨rfl, -⟩ | ⟨rfl, -⟩ := exec_error_cases ht
    · exact ⟨by rw [herr], hresp .illegal⟩
    · exact ⟨rfl, nofun⟩
    · exact ⟨rfl, nofun⟩

/-! ### The responses (R94) -/

/-- Settles O59: the answer of each operation, an error being excluded. -/
theorem responsesByOperation : Obligations.ResponsesByOperation := by
  intro i s t h hresp
  have hgain {k : Gain} {g : U32} (hg : exec (setGain k g) s = .next t) : t.resp = .none := by
    obtain rfl | ⟨q, rfl⟩ := exec_setGain_cases hg
    · exact absurd rfl (hresp .operand)
    · rfl
  cases i with
  | setDrive | disableAll | tick | sample | setSetpoint | setControl | getGains => cases h; rfl
  | pidStep e n =>
    have hn : n ≠ 0 := by rintro rfl; cases h; exact hresp .dtZero rfl
    cases hen : s.ctl.enabled with
    | true => cases (exec_pidStep_enabled hn hen e).symm.trans h; exact ⟨_, _, _, rfl⟩
    | false => cases (exec_pidStep_disabled hn hen e).symm.trans h; rfl
  | ctrlStep n =>
    have hn : n ≠ 0 := by rintro rfl; cases h; exact hresp .dtZero rfl
    cases hready : s.ctl.enabled && s.posFresh with
    | true =>
      obtain ⟨hen, hfresh⟩ := Bool.and_eq_true_iff.mp hready
      cases (exec_ctrlStep_fresh hn hen hfresh).symm.trans h
      exact ⟨_, _, _, rfl⟩
    | false =>
      cases (exec_ctrlStep_idle hn (Bool.and_eq_false_iff.mp hready)).symm.trans h
      rfl
  | setKp g => exact hgain (k := .p) h
  | setKi g => exact hgain (k := .i) h
  | setKd g => exact hgain (k := .d) h
  | setMode mode => obtain rfl | ⟨m, rfl⟩ := exec_setMode_cases h <;> rfl
  | supervisorStep btnH btnV swH swV => obtain ⟨_, _, _, _, rfl⟩ := exec_supervisorStep_frame h; rfl

end Sys2Proof.Machine

namespace Sys2Proof.Machine

open Sys2Proof.Claims Sys2Proof.Safety

/-! ### What no operation reads (R28, R41, R242)

No operation reads the error bits or the command port, and only `SAMPLE` and a `CTRL_STEP` on a fresh position read the filter. So
each of them does the same whatever stands there. -/

/-- The state with the filter, the error bits and the port replaced. -/
def State.besides (s : State) (f : Filter) (b : ErrBits) (p : List CmdWord) : State := { s with flt := f, err := b, port := p }

section Besides

variable (s : State) (f : Filter) (b : ErrBits) (p : List CmdWord)

theorem tick_besides : tick (s.besides f b p) = (tick s).besides f b p := by
  cases h : s.estop with
  | true => rw [tick_stopped h, tick_stopped (s := s.besides f b p) h]
  | false => rw [tick_running h, tick_running (s := s.besides f b p) h]; rfl

theorem setControl_besides (en : Bool) : setControl en (s.besides f b p) = (setControl en s).besides f b p := by
  cases en with
  | true =>
    cases h : s.ctl.enabled with
    | true => rw [setControl_true_of_enabled h, setControl_true_of_enabled (s := s.besides f b p) h]
    | false =>
      rw [setControl_enable h, setControl_enable (s := s.besides f b p) h]
      unfold onEnable
      cases hclear : s.cfg.pidClearOnEnable <;> simp [State.besides, hclear]
  | false =>
    cases h : s.ctl.enabled with
    | true => rw [setControl_disable h, setControl_disable (s := s.besides f b p) h]; rfl
    | false => rw [setControl_false_of_disabled h, setControl_false_of_disabled (s := s.besides f b p) h]

theorem runSubState_besides (k : SubState) : runSubState k (s.besides f b p) = (runSubState k s).besides f b p := by
  cases k with
  | enable => rw [runSubState_enable, runSubState_enable, setControl_besides]; rfl
  | disable => rw [runSubState_disable, runSubState_disable, setControl_besides]; rfl
  | move h => rw [runSubState_move, runSubState_move]; rfl
  | wait =>
    cases h : s.motionComplete with
    | false => rw [runSubState_wait_unset h, runSubState_wait_unset (s := s.besides f b p) h]
    | true => rw [runSubState_wait_set h, runSubState_wait_set (s := s.besides f b p) h]; rfl
  | rotStart k => rw [runSubState_rotStart, runSubState_rotStart]; rfl
  | rotating =>
    obtain h | h := Nat.lt_or_ge 1 s.sup.rotCount.toNat
    · rw [runSubState_rotating_counts h, runSubState_rotating_counts (s := s.besides f b p) h]; rfl
    · rw [runSubState_rotating_last h, runSubState_rotating_last (s := s.besides f b p) h]; rfl
  | idle => rfl

theorem manualStep_besides (btnH btnV swH swV : Bool) :
    manualStep btnH btnV swH swV (s.besides f b p) = (manualStep btnH btnV swH swV s).besides f b p := by
  rw [manualStep_eq, manualStep_eq]; rfl

end Besides

/-- The operation, which leads from `s` to `t`, does the same when the filter is `f` and whatever the error bits and the port
are; it leaves the error bits of `t` when it finds those of `s`. -/
def DoesSameBesides (i : Instr) (s t : State) (f : Filter) : Prop :=
  ∀ b p, ∃ b', (b = s.err → b' = t.err) ∧ exec i (s.besides f b p) = .next (t.besides f b' p)

section ExecBesides

variable {s t : State} (f : Filter)

theorem exec_setGain_besides {k : Gain} {g : U32} (h : exec (setGain k g) s = .next t) :
    DoesSameBesides (setGain k g) s t f := fun b p => by
  cases hclamp : gainClamp s.cfg k (binary32 g) with
  | none =>
    cases (exec_setGain_of_none hclamp).symm.trans h
    exact ⟨b.raised .operand, fun hb => hb ▸ rfl, exec_setGain_of_none (s := s.besides f b p) hclamp⟩
  | some q =>
    cases (exec_setGain_of_some hclamp).symm.trans h
    exact ⟨b, id, exec_setGain_of_some (s := s.besides f b p) hclamp⟩

theorem exec_setMode_besides {mode : Nat} (h : exec (.setMode mode) s = .next t) :
    DoesSameBesides (.setMode mode) s t f := fun b p => by
  cases hmode : modeOf mode with
  | none => cases (exec_setMode_unnamed hmode).symm.trans h; exact ⟨b, id, exec_setMode_unnamed hmode⟩
  | some m =>
    by_cases hm : m = s.sup.mode
    · cases (exec_setMode_same (hm ▸ hmode)).symm.trans h
      exact ⟨b, id, exec_setMode_same (s := s.besides f b p) (hm ▸ hmode)⟩
    · cases (exec_setMode_other hmode hm).symm.trans h
      exact ⟨b, id, exec_setMode_other (s := s.besides f b p) hmode hm⟩

theorem exec_pidStep_besides {e : Int} {n : Nat} (h : exec (.pidStep e n) s = .next t) :
    DoesSameBesides (.pidStep e n) s t f := fun b p => by
  by_cases hn : n = 0
  · subst hn; cases h
    exact ⟨b.raised .dtZero, fun hb => hb ▸ rfl, rfl⟩
  cases hen : s.ctl.enabled with
  | true =>
    cases (exec_pidStep_enabled hn hen e).symm.trans h
    exact ⟨b, fun hb => by simpa using hb, exec_pidStep_enabled (s := s.besides f b p) hn hen e⟩
  | false =>
    cases (exec_pidStep_disabled hn hen e).symm.trans h
    exact ⟨b, id, exec_pidStep_disabled (s := s.besides f b p) hn hen e⟩

/-- `CTRL_STEP` reads the position when it is fresh (R159). -/
theorem exec_ctrlStep_besides {n : Nat} (h : exec (.ctrlStep n) s = .next t) (hf : s.posFresh = true → f = s.flt) :
    DoesSameBesides (.ctrlStep n) s t f := fun b p => by
  by_cases hn : n = 0
  · subst hn; cases h
    exact ⟨b.raised .dtZero, fun hb => hb ▸ rfl, rfl⟩
  by_cases hready : s.ctl.enabled = false ∨ s.posFresh = false
  · cases (exec_ctrlStep_idle hn hready).symm.trans h
    exact ⟨b, id, exec_ctrlStep_idle (s := s.besides f b p) hn hready⟩
  · obtain ⟨hen, hfresh⟩ : s.ctl.enabled = true ∧ s.posFresh = true := by simpa using hready
    obtain rfl := hf hfresh
    cases (exec_ctrlStep_fresh hn hen hfresh).symm.trans h
    exact ⟨b, fun hb => by simpa using hb, exec_ctrlStep_fresh (s := s.besides s.flt b p) hn hen hfresh⟩

theorem exec_supervisorStep_besides {btnH btnV swH swV : Bool} (h : exec (.supervisorStep btnH btnV swH swV) s = .next t) :
    DoesSameBesides (.supervisorStep btnH btnV swH swV) s t f := fun b p => by
  refine ⟨b, fun hb => ?err, ?same⟩
  case err => obtain ⟨_, _, _, _, rfl⟩ := exec_supervisorStep_frame h; exact hb
  case same =>
    cases hsub : currentSub s with
    | none =>
      have hmode := currentSub_eq_none_iff.mp hsub
      cases (exec_supervisorStep_manual hmode btnH btnV swH swV).symm.trans h
      rw [exec_supervisorStep_manual (s := s.besides f b p) hmode, manualStep_besides]; rfl
    | some k =>
      cases (exec_supervisorStep_of_currentSub hsub btnH btnV swH swV).symm.trans h
      rw [exec_supervisorStep_of_currentSub (s := s.besides f b p) hsub, runSubState_besides]; rfl

/-- Every operation but `SAMPLE`, and a `CTRL_STEP` on a fresh position, does the same beside another filter. -/
theorem exec_besides {i : Instr} (h : exec i s = .next t) (hi : ∀ raw, i ≠ .sample raw)
    (hf : s.posFresh = true → f = s.flt) : DoesSameBesides i s t f := by
  cases i with
  | sample raw => exact absurd rfl (hi raw)
  | setDrive | disableAll | setSetpoint | getGains => cases h; exact fun b p => ⟨b, id, rfl⟩
  | tick =>
    cases h
    exact fun b p => ⟨b, fun hb => hb.trans (tick_err s).symm, by rw [exec_tick, tick_besides]; rfl⟩
  | setControl en =>
    cases h
    exact fun b p => ⟨b, fun hb => hb.trans (setControl_err s en).symm, by rw [exec, execSetControl, setControl_besides]; rfl⟩
  | pidStep e n => exact exec_pidStep_besides f h
  | ctrlStep n => exact exec_ctrlStep_besides f h hf
  | setKp g => exact exec_setGain_besides (k := .p) f h
  | setKi g => exact exec_setGain_besides (k := .i) f h
  | setKd g => exact exec_setGain_besides (k := .d) f h
  | setMode mode => exact exec_setMode_besides f h
  | supervisorStep btnH btnV swH swV => exact exec_supervisorStep_besides f h

/-- Every operation does the same whatever the error bits and the port are. -/
theorem exec_with_err_port {i : Instr} (h : exec i s = .next t) (b : ErrBits) (p : List CmdWord) :
    ∃ b', (b = s.err → b' = t.err) ∧ exec i { s with err := b, port := p } = .next { t with err := b', port := p } := by
  by_cases hi : ∃ raw, i = .sample raw
  · obtain ⟨raw, rfl⟩ := hi
    cases h
    exact ⟨b, id, rfl⟩
  · have hne : ∀ raw, i ≠ .sample raw := by simpa using hi
    obtain ⟨hflt, -⟩ := exec_flt h hne
    obtain ⟨b', hb', hexec⟩ := exec_besides s.flt h hne (fun _ => rfl) b p
    exact ⟨b', hb', hexec.trans (by rw [← hflt]; rfl)⟩

end ExecBesides

theorem exec_with_port {i : Instr} {s t : State} (h : exec i s = .next t) (p : List CmdWord) :
    exec i { s with port := p } = .next { t with port := p } := by
  obtain ⟨b', hb', hexec⟩ := exec_with_err_port h s.err p
  rwa [hb' rfl] at hexec

/-- Settles O58: the two errors by `exec_error_cases`, and the same effect beside other error bits. -/
theorem errorsAndTheirCauses : Obligations.ErrorsAndTheirCauses := by
  intro i s t h
  refine ⟨exec_error_cases h, fun b => ?_⟩
  obtain ⟨b', -, hexec⟩ := exec_with_err_port h b s.port
  refine ⟨b', hexec.trans ?_⟩
  rw [← exec_port h]

/-! ### The filter before its first sample (R28, R41) -/

/-- Two unprimed states that differ in the filter only answer an operation alike. -/
theorem exec_sameButFilter {i : Instr} {s s' t t' : State} (hs : sameButFilter s s') (h : exec i s = .next t)
    (h' : exec i s' = .next t') : t' = t ∨ sameButFilter t t' := by
  obtain ⟨hprimed, hprimed', hfresh, hs'⟩ := hs
  by_cases hi : ∃ raw, i = .sample raw
  · obtain ⟨raw, rfl⟩ := hi
    rw [exec_sample, Filter.sampled_of_unprimed hprimed] at h
    rw [exec_sample, Filter.sampled_of_unprimed hprimed', hs'] at h'
    cases h; cases h'
    exact .inl rfl
  · have hne : ∀ raw, i ≠ .sample raw := by simpa using hi
    obtain ⟨hflt, hstale⟩ := exec_flt h hne
    obtain ⟨hflt', -⟩ := exec_flt h' hne
    obtain ⟨b', hb', hexec⟩ := exec_besides s'.flt h hne (by simp [hfresh]) s.err s.port
    have ht' : t' = t.besides s'.flt t.err s.port := by
      rw [hb' rfl] at hexec
      rw [hs'] at h'
      cases hexec.symm.trans h'; rfl
    refine .inr ⟨hflt ▸ hprimed, hflt' ▸ hprimed', Bool.eq_false_iff.mpr fun hf => ?_, ?_⟩
    · simp [hfresh] at hstale; simp [hstale] at hf
    · rw [ht', ← exec_port h]; rfl

/-- Settles O36: an operation by `exec_sameButFilter`; an error and a missing word leave the difference as it is. -/
theorem unprimedFilterUnread : Obligations.UnprimedFilterUnread := by
  intro s s' t t' hs h h'
  obtain ⟨hprimed, hprimed', hfresh, hs'⟩ := hs
  have hport : s'.port = s.port := by rw [hs']
  cases hp : s.port with
  | nil =>
    cases (step_of_port_nil hp).symm.trans h
    cases (step_of_port_nil (hport.trans hp)).symm.trans h'
    exact .inr ⟨hprimed, hprimed', hfresh, hs'⟩
  | cons w rest =>
    have hrest : sameButFilter { s with port := rest } { s' with port := rest } := ⟨hprimed, hprimed', hfresh, by rw [hs']⟩
    cases hd : decode w with
    | ok i =>
      exact exec_sameButFilter hrest ((step_of_decode_ok hp hd).symm.trans h)
        ((step_of_decode_ok (hport.trans hp) hd).symm.trans h')
    | error why =>
      cases (step_of_decode_error hp hd).symm.trans h
      cases (step_of_decode_error (hport.trans hp) hd).symm.trans h'
      exact .inr ⟨hprimed, hprimed', hfresh, by rw [hs']; rfl⟩

end Sys2Proof.Machine

namespace Sys2Proof.Machine

open Sys2Proof.Claims Sys2Proof.Safety

/-! ### Runs, step by step -/

/-- What every step keeps holds at the end of a run. -/
theorem run_invariant {P : State → Prop} (hP : ∀ {s t : State}, P s → step s = .next t → P t) {k : Nat} {s t : State}
    (hs : P s) (h : Sys2Proof.core.run k s = .next t) : P t := by
  induction k generalizing s with
  | zero => cases h; exact hs
  | succ k ih =>
    obtain ⟨u, hstep, hrun⟩ := run_succ_eq_next_iff.mp h
    exact ih (hP hs hstep) hrun

/-! ### The error bits of a run (R37, R243) -/

/-- Every bit set in the first is set in the second. -/
structure ErrBits.Le (b b' : ErrBits) : Prop where
  illegal : b.illegal = true → b'.illegal = true
  dt : b.dt = true → b'.dt = true
  operand : b.operand = true → b'.operand = true

theorem ErrBits.Le.refl (b : ErrBits) : b.Le b := ⟨id, id, id⟩

theorem ErrBits.le_raised (b : ErrBits) (e : ErrCode) : b.Le (b.raised e) := by
  cases e
  case illegal => exact ⟨fun _ => rfl, id, id⟩
  case dtZero => exact ⟨id, fun _ => rfl, id⟩
  case operand => exact ⟨id, id, fun _ => rfl⟩

theorem exec_err_le {i : Instr} {s t : State} (h : exec i s = .next t) : s.err.Le t.err := by
  obtain ⟨herr, -⟩ | ⟨rfl, -⟩ | ⟨rfl, -⟩ := exec_error_cases h
  · rw [herr]; exact .refl _
  · exact s.err.le_raised .dtZero
  · exact s.err.le_raised .operand

theorem step_err_le {s t : State} (h : step s = .next t) : s.err.Le t.err := by
  obtain ⟨-, hstep⟩ | ⟨w, rest, i, -, -, hstep⟩ | ⟨w, rest, why, -, -, hstep⟩ := step_cases s
  · cases hstep.symm.trans h; exact .refl _
  · exact exec_err_le (s := { s with port := rest }) (hstep.symm.trans h)
  · cases hstep.symm.trans h; exact s.err.le_raised .illegal

theorem errorFree_raise (e : ErrCode) (s : State) : errorFree (raise e s) = false := by
  cases e <;> simp [errorFree, ErrBits.any, ErrBits.raised]

/-- Executing a word raises an error exactly when it does not decode or its operation raises one (R241). -/
theorem raisesError_iff_of_decode_ok {w : CmdWord} {i : Instr} (h : decode w = .ok i) : raisesError w ↔ Raises i := by
  have hlegal : ¬ illegal w := (not_illegal_iff_decode_ok w).mpr ⟨i, h⟩
  simp [raisesError, Raises, hlegal, h]

theorem exec_errorFree_iff {i : Instr} {s t : State} (h : exec i s = .next t) :
    errorFree t = true ↔ errorFree s = true ∧ ¬ Raises i := by
  by_cases hi : Raises i
  · obtain ⟨e, he⟩ := exec_of_raises hi s
    cases he.symm.trans h
    simp [errorFree_raise, hi]
  · have herr : t.err = s.err := by
      obtain ⟨herr, -⟩ | ⟨-, hcount | hcount⟩ | ⟨-, hnan⟩ := exec_error_cases h
      · exact herr
      · exact absurd (.inl hcount) hi
      · exact absurd (.inr (.inl hcount)) hi
      · exact absurd (.inr (.inr hnan)) hi
    simp [errorFree, herr, hi]

/-- A step of a pending word keeps the bits 0 exactly when the word raises no error. -/
theorem step_errorFree_iff {s t : State} {w : CmdWord} {rest : List CmdWord} (hport : s.port = w :: rest)
    (h : step s = .next t) : errorFree t = true ↔ errorFree s = true ∧ ¬ raisesError w := by
  cases hd : decode w with
  | ok i =>
    rw [raisesError_iff_of_decode_ok hd]
    exact exec_errorFree_iff (s := { s with port := rest }) ((step_of_decode_ok hport hd).symm.trans h)
  | error why =>
    have hraises : raisesError w := .inl ((illegal_iff_decode_error w).mpr ⟨why, hd⟩)
    cases (step_of_decode_error hport hd).symm.trans h
    simp [errorFree_raise, hraises]

/-- A run keeps the bits 0 exactly when none of the words it takes raises an error. -/
theorem run_errorFree_iff {k : Nat} {s t : State} (h : Sys2Proof.core.run k s = .next t) :
    errorFree t = true ↔ errorFree s = true ∧ ∀ w ∈ s.port.take k, ¬ raisesError w := by
  induction k generalizing s with
  | zero => cases h; simp
  | succ k ih =>
    obtain ⟨u, hstep, hrun⟩ := run_succ_eq_next_iff.mp h
    rw [ih hrun, step_port hstep]
    cases hp : s.port with
    | nil => cases (step_of_port_nil hp).symm.trans hstep; simp
    | cons w rest => simp [step_errorFree_iff hp hstep, and_assoc]

/-- An error-free run is the operations of its words, executed one after the other on the state without these words. -/
theorem run_eq_runOps {k : Nat} {s t : State} (h : Sys2Proof.core.run k s = .next t) (ht : errorFree t = true) :
    ∃ ops : List Instr, (s.port.take k).map decode = ops.map .ok ∧ runOps ops { s with port := s.port.drop k } = some t := by
  induction k generalizing s with
  | zero => cases h; exact ⟨[], rfl, rfl⟩
  | succ k ih =>
    obtain ⟨u, hstep, hrun⟩ := run_succ_eq_next_iff.mp h
    obtain ⟨ops, hwords, hops⟩ := ih hrun
    have hport := step_port hstep
    cases hp : s.port with
    | nil =>
      cases (step_of_port_nil hp).symm.trans hstep
      rw [hp] at hwords hops
      exact ⟨ops, by simpa using hwords, by simpa using hops⟩
    | cons w rest =>
      rw [hp, List.tail_cons] at hport
      obtain ⟨-, hraises⟩ := (step_errorFree_iff hp hstep).mp ((run_errorFree_iff hrun).mp ht).1
      obtain ⟨i, hi⟩ := (not_illegal_iff_decode_ok w).mp fun hw => hraises (.inl hw)
      have hexec := exec_with_port ((step_of_decode_ok hp hi).symm.trans hstep) (rest.drop k)
      refine ⟨i :: ops, by simp [hi, ← hport, hwords], runOps_cons_eq_some_iff.mpr ⟨_, hexec, ?_⟩⟩
      rw [← hport]
      exact hops

/-- Settles O18: no step clears a bit, and the words of a run decide whether one is set. -/
theorem errorBitsSticky : Obligations.ErrorBitsSticky := by
  refine ⟨fun k s t h => ⟨fun hs => ?illegal, fun hs => ?dt, fun hs => ?operand⟩, fun k s t h => run_errorFree_iff h,
    fun k s t h ht => run_eq_runOps h ht⟩
  case illegal => exact run_invariant (P := fun s => s.err.illegal = true) (fun hs h => (step_err_le h).illegal hs) hs h
  case dt => exact run_invariant (P := fun s => s.err.dt = true) (fun hs h => (step_err_le h).dt hs) hs h
  case operand => exact run_invariant (P := fun s => s.err.operand = true) (fun hs h => (step_err_le h).operand hs) hs h

/-! ### A stopped block (R107, R281) -/

/-- `estop` is set and no channel emits a pulse. -/
structure Stopped (s : State) : Prop where
  estop : s.estop = true
  silent : ∀ a, (s.channel a).emitted = none

theorem emitted_eq_none_iff (c : Channel) : c.emitted = none ↔ c.en = false := by
  unfold Channel.emitted; split <;> simp_all

theorem stopped_disableAll (s : State) : Stopped (disableAll s) :=
  ⟨rfl, fun a => by rw [channel_disableAll, emitted_eq_none_iff]⟩

/-- Stopping a block that emits nothing leaves its outputs. -/
theorem disableAll_out_of_silent {s : State} (h : ∀ a, (s.channel a).emitted = none) : (disableAll s).out = s.out := by
  refine PerAxis.ext_get fun a => ?_
  have hen := (emitted_eq_none_iff _).mp (h a)
  calc ((disableAll s).channel a)
      = { s.channel a with en := false } := channel_disableAll s a
    _ = s.channel a := by rw [← hen]

theorem exec_of_stopped {i : Instr} {s t : State} (hs : Stopped s) (h : exec i s = .next t) : t.estop = true ∧ t.out = s.out := by
  by_cases htick : i = .tick
  · subst htick; cases h
    rw [tick_stopped hs.estop]
    exact ⟨hs.estop, rfl⟩
  by_cases hstop : i = .disableAll
  · subst hstop; cases h
    exact ⟨rfl, disableAll_out_of_silent hs.silent⟩
  · exact ⟨(exec_estop h hstop).trans hs.estop, (exec_drives h htick hstop).2⟩

theorem step_of_stopped {s t : State} (hs : Stopped s) (h : step s = .next t) : t.estop = true ∧ t.out = s.out := by
  obtain ⟨-, hstep⟩ | ⟨w, rest, i, -, -, hstep⟩ | ⟨w, rest, why, -, -, hstep⟩ := step_cases s
  · cases hstep.symm.trans h; exact ⟨hs.estop, rfl⟩
  · exact exec_of_stopped (s := { s with port := rest }) ⟨hs.estop, hs.silent⟩ (hstep.symm.trans h)
  · cases hstep.symm.trans h; exact ⟨hs.estop, rfl⟩

theorem Stopped.of_out {s t : State} (hs : Stopped s) (hestop : t.estop = true) (hout : t.out = s.out) : Stopped t :=
  ⟨hestop, fun a => by rw [State.channel, hout]; exact hs.silent a⟩

/-- A run from a stopped block leaves it stopped with the same outputs. -/
theorem run_of_stopped {k : Nat} {s t : State} (hs : Stopped s) (h : Sys2Proof.core.run k s = .next t) :
    Stopped t ∧ t.out = s.out := by
  refine run_invariant (P := fun u => Stopped u ∧ u.out = s.out) (fun ⟨hu, hout⟩ hstep => ?_) ⟨hs, rfl⟩ h
  obtain ⟨hestop', hout'⟩ := step_of_stopped hu hstep
  exact ⟨hu.of_out hestop' hout', hout'.trans hout⟩

/-- Settles O19: `DISABLE_ALL` stops the block, and a stopped block stays as it is. -/
theorem noPulseAfterStop : Obligations.NoPulseAfterStop := by
  refine ⟨fun s s' h => ?stops, fun s t hestop hsilent h => step_of_stopped ⟨hestop, hsilent⟩ h,
    fun k s' t hrun _ s h => ?run⟩
  case stops =>
    cases h
    exact ⟨(stopped_disableAll s).estop, (stopped_disableAll s).silent⟩
  case run =>
    cases h
    obtain ⟨ht, hout⟩ := run_of_stopped (s := respond .none (disableAll s)) ⟨rfl, (stopped_disableAll s).silent⟩ hrun
    exact ⟨ht.estop, hout, ht.silent⟩

/-! ### Interleavings (R66) -/

/-- Settles O12: each word of the order is taken from the head of one stream. -/
theorem interleavingKeepsStreams : Obligations.InterleavingKeepsStreams := by
  intro streams total h
  induction h with
  | nil streams hnil => exact ⟨fun l hl => by rw [hnil l hl], by rw [List.flatten_eq_nil_iff.mpr hnil]⟩
  | cons before after w rest total _ ih =>
    obtain ⟨hsub, hperm⟩ := ih
    refine ⟨fun l hl => ?sublist, ?perm⟩
    case sublist =>
      obtain hl | rfl | hl : l ∈ before ∨ l = w :: rest ∨ l ∈ after := by simpa using hl
      · exact (hsub l (by simp [hl])).cons w
      · exact (hsub rest (by simp)).cons_cons w
      · exact (hsub l (by simp [hl])).cons w
    case perm =>
      have hsplit : (before ++ rest :: after).flatten = before.flatten ++ (rest ++ after.flatten) := by simp
      have hmiddle : (w :: (before.flatten ++ (rest ++ after.flatten))).Perm (before.flatten ++ w :: (rest ++ after.flatten)) :=
        List.perm_middle.symm
      rw [hsplit] at hperm
      simpa using (hperm.cons w).trans hmiddle

end Sys2Proof.Machine

namespace Sys2Proof.Machine

open Sys2Proof.Claims Sys2Proof.Safety

/-! ### Who writes the motion-complete signal (R32, R157, R201) -/

/-- A sub-state leaves the signal, but a MOVE clears it (R201). -/
theorem runSubState_motionComplete_cases (k : SubState) (s : State) :
    (runSubState k s).motionComplete = s.motionComplete ∨ ((runSubState k s).motionComplete = false ∧ ∃ h, k = .move h) := by
  cases k with
  | enable => left; simp [runSubState_enable]
  | disable => left; simp [runSubState_disable]
  | move h => right; exact ⟨by rw [runSubState_move], h, rfl⟩
  | wait => left; cases h : s.motionComplete <;> simp [runSubState_wait_unset, runSubState_wait_set, h]
  | rotStart k => left; rw [runSubState_rotStart]
  | rotating =>
    left
    obtain h | h := Nat.lt_or_ge 1 s.sup.rotCount.toNat
    · rw [runSubState_rotating_counts h]
    · rw [runSubState_rotating_last h]
  | idle => exact .inl rfl

/-- What an operation does to the signal: nothing, or it runs the controller inside the deadzone, or it is a supervisor step at a
MOVE, which clears it. -/
theorem exec_motionComplete_cases {i : Instr} {s t : State} (h : exec i s = .next t) :
    t.motionComplete = s.motionComplete ∨ ControllerInDeadzone s i ∨
    (t.motionComplete = false ∧ (∃ btnH btnV swH swV, i = .supervisorStep btnH btnV swH swV) ∧
      ∃ x, currentSub s = some (.move x)) := by
  cases i with
  | setDrive | disableAll | sample | setSetpoint | getGains => cases h; exact .inl rfl
  | tick => cases h; exact .inl (tick_motionComplete s)
  | setControl en => cases h; exact .inl (setControl_motionComplete s en)
  | pidStep e n =>
    by_cases hn : n = 0
    · subst hn; cases h; exact .inl rfl
    cases hen : s.ctl.enabled with
    | false => cases (exec_pidStep_disabled hn hen e).symm.trans h; exact .inl rfl
    | true =>
      cases (exec_pidStep_enabled hn hen e).symm.trans h
      cases hdz : inDeadzone s.cfg e with
      | true => exact .inr (.inl ⟨hen, .inl ⟨e, n, rfl, hn, (inDeadzone_iff s.cfg e).mp hdz⟩⟩)
      | false => left; simp [hdz]
  | ctrlStep n =>
    by_cases hn : n = 0
    · subst hn; cases h; exact .inl rfl
    by_cases hready : s.ctl.enabled = false ∨ s.posFresh = false
    · cases (exec_ctrlStep_idle hn hready).symm.trans h; exact .inl rfl
    obtain ⟨hen, hfresh⟩ : s.ctl.enabled = true ∧ s.posFresh = true := by simpa using hready
    cases (exec_ctrlStep_fresh hn hen hfresh).symm.trans h
    cases hdz : inDeadzone s.cfg (positionError s) with
    | true => exact .inr (.inl ⟨hen, .inr ⟨n, rfl, hn, hfresh, (inDeadzone_iff s.cfg _).mp hdz⟩⟩)
    | false => left; simp [hdz]
  | setKp g => obtain ⟨_, _, _, rfl⟩ := exec_setGain_frame (k := .p) h; exact .inl rfl
  | setKi g => obtain ⟨_, _, _, rfl⟩ := exec_setGain_frame (k := .i) h; exact .inl rfl
  | setKd g => obtain ⟨_, _, _, rfl⟩ := exec_setGain_frame (k := .d) h; exact .inl rfl
  | setMode mode => obtain rfl | ⟨m, rfl⟩ := exec_setMode_cases h <;> exact .inl rfl
  | supervisorStep btnH btnV swH swV =>
    cases hsub : currentSub s with
    | none =>
      cases (exec_supervisorStep_manual (currentSub_eq_none_iff.mp hsub) btnH btnV swH swV).symm.trans h
      exact .inl (by rw [manualStep_eq]; rfl)
    | some k =>
      cases (exec_supervisorStep_of_currentSub hsub btnH btnV swH swV).symm.trans h
      obtain hkeeps | ⟨hclears, x, rfl⟩ := runSubState_motionComplete_cases k s
      · exact .inl hkeeps
      · exact .inr (.inr ⟨hclears, ⟨_, _, _, _, rfl⟩, x, rfl⟩)

/-- A change of the signal from 0 to 1 is a run of the controller inside the deadzone (R32). -/
theorem controllerInDeadzone_of_sets {i : Instr} {s t : State} (h : exec i s = .next t) (hs : s.motionComplete = false)
    (ht : t.motionComplete = true) : ControllerInDeadzone s i := by
  obtain hkeeps | hdz | ⟨hclears, -, -⟩ := exec_motionComplete_cases h
  · simp [hs, ht] at hkeeps
  · exact hdz
  · simp [ht] at hclears

/-- The datapath does not clear the signal (R157). -/
theorem motionComplete_of_controllerInDeadzone {i : Instr} {s t : State} (hi : ControllerInDeadzone s i) (h : exec i s = .next t)
    (hs : s.motionComplete = true) : t.motionComplete = true := by
  obtain ⟨-, ⟨e, n, rfl, -⟩ | ⟨n, rfl, -⟩⟩ := hi
  · obtain rfl | rfl | rfl := exec_pidStep_cases h <;> simp [hs]
  · obtain rfl | rfl | rfl := exec_ctrlStep_cases h <;> simp [hs]

/-- Settles O44: the case split of an operation by what it does to the signal. -/
theorem motionCompleteWrites : Obligations.MotionCompleteWrites := by
  refine ⟨rfl, fun i s t h => ⟨controllerInDeadzone_of_sets h, fun hs ht => ?_⟩⟩
  obtain hkeeps | hdz | ⟨-, hstep, hmove⟩ := exec_motionComplete_cases h
  · simp [hs, ht] at hkeeps
  · simp [motionComplete_of_controllerInDeadzone hdz h hs] at ht
  · exact ⟨hstep, hmove⟩

/-! ### Who moves a counter (R36, R191, R198) -/

/-- A sub-state advances the supervisor or leaves it, up to the rotation counter, and IDLE does not advance it. -/
theorem runSubState_sup_cases (k : SubState) (s : State) :
    ∃ n, (runSubState k s).sup = { s.sup with rotCount := n } ∨
      (k ≠ .idle ∧ (runSubState k s).sup = { s.sup.advanced with rotCount := n }) := by
  cases k with
  | enable => exact ⟨_, .inr ⟨nofun, by rw [runSubState_enable]⟩⟩
  | disable => exact ⟨_, .inr ⟨nofun, by rw [runSubState_disable]⟩⟩
  | move h => exact ⟨_, .inr ⟨nofun, by rw [runSubState_move]⟩⟩
  | wait =>
    cases h : s.motionComplete with
    | false => exact ⟨_, .inl (by rw [runSubState_wait_unset h])⟩
    | true => exact ⟨_, .inr ⟨nofun, by rw [runSubState_wait_set h]⟩⟩
  | rotStart k => exact ⟨_, .inr ⟨nofun, by rw [runSubState_rotStart]⟩⟩
  | rotating =>
    obtain h | h := Nat.lt_or_ge 1 s.sup.rotCount.toNat
    · exact ⟨_, .inl (by rw [runSubState_rotating_counts h])⟩
    · exact ⟨_, .inr ⟨nofun, by rw [runSubState_rotating_last h]⟩⟩
  | idle => exact ⟨_, .inl rfl⟩

/-- An advance of a mode with a program is one step up of the mode's counter, the other kept (R198). -/
theorem advanced_counters {s : State} {k : SubState} (hk : currentSub s = some k) (hidle : k ≠ .idle) :
    (s.sup.mode = .calibration ∧ s.sup.advanced.subCal.val = s.sup.subCal.val + 1 ∧ s.sup.advanced.subAuto = s.sup.subAuto) ∨
    (s.sup.mode = .automatic ∧ s.sup.advanced.subAuto.val = s.sup.subAuto.val + 1 ∧ s.sup.advanced.subCal = s.sup.subCal) := by
  obtain ⟨-, -, -, hcounter, hauto, hcal⟩ := advanced_of_currentSub hk hidle
  have hmode := s.sup.advanced_mode
  cases hm : s.sup.mode with
  | manual => simp [currentSub, hm] at hk
  | calibration => exact .inl ⟨rfl, by simpa [counter, hmode, hm] using hcounter, hauto hm⟩
  | automatic => exact .inr ⟨rfl, by simpa [counter, hmode, hm] using hcounter, hcal hm⟩

/-- A supervisor step leaves the mode, and the counters or one of them one up (R193, R198). -/
theorem exec_supervisorStep_counters {btnH btnV swH swV : Bool} {s t : State}
    (h : exec (.supervisorStep btnH btnV swH swV) s = .next t) :
    t.sup.mode = s.sup.mode ∧
      ((t.sup.subCal = s.sup.subCal ∧ t.sup.subAuto = s.sup.subAuto) ∨
        (s.sup.mode = .calibration ∧ t.sup.subCal.val = s.sup.subCal.val + 1 ∧ t.sup.subAuto = s.sup.subAuto) ∨
        (s.sup.mode = .automatic ∧ t.sup.subAuto.val = s.sup.subAuto.val + 1 ∧ t.sup.subCal = s.sup.subCal)) := by
  cases hsub : currentSub s with
  | none =>
    cases (exec_supervisorStep_manual (currentSub_eq_none_iff.mp hsub) btnH btnV swH swV).symm.trans h
    rw [manualStep_eq]
    exact ⟨rfl, .inl ⟨rfl, rfl⟩⟩
  | some k =>
    cases (exec_supervisorStep_of_currentSub hsub btnH btnV swH swV).symm.trans h
    refine ⟨runSubState_mode k s, ?_⟩
    obtain ⟨n, hsup | ⟨hidle, hsup⟩⟩ := runSubState_sup_cases k s
    · rw [respond_sup, hsup]; exact .inl ⟨rfl, rfl⟩
    · rw [respond_sup, hsup]; exact .inr (advanced_counters hsub hidle)

/-- Settles O54: the supervisor is written by `SET_MODE` and by supervisor steps only, and by these as their equations say. -/
theorem counterAdvancesByOne : Obligations.CounterAdvancesByOne := by
  intro i s t h
  by_cases hset : ∃ m, i = .setMode m
  · refine ⟨?_, fun _ => hset⟩
    obtain ⟨mode, rfl⟩ := hset
    cases hmode : modeOf mode with
    | none => cases (exec_setMode_unnamed hmode).symm.trans h; exact .inl ⟨rfl, rfl⟩
    | some m =>
      by_cases hm : m = s.sup.mode
      · cases (exec_setMode_same (hm ▸ hmode)).symm.trans h; exact .inl ⟨rfl, rfl⟩
      · cases (exec_setMode_other hmode hm).symm.trans h; exact .inr (.inr ⟨⟨mode, rfl⟩, hm, rfl, rfl⟩)
  by_cases hstep : ∃ btnH btnV swH swV, i = .supervisorStep btnH btnV swH swV
  · obtain ⟨btnH, btnV, swH, swV, rfl⟩ := hstep
    obtain ⟨hmode, hkept | hmoved⟩ := exec_supervisorStep_counters h
    · exact ⟨.inl hkept, fun hne => absurd hmode hne⟩
    · exact ⟨.inr (.inl ⟨⟨_, _, _, _, rfl⟩, hmode, hmoved⟩), fun hne => absurd hmode hne⟩
  · have hsup := exec_sup h (by simpa using hset) (by simpa using hstep)
    rw [hsup]
    exact ⟨.inl ⟨rfl, rfl⟩, fun hne => absurd rfl hne⟩

/-! ### A WAIT and the signal it waits for (R200, R205) -/

theorem calProgram_nextSub_of_move {c : Params} {k : Fin 9} {x : U32} (h : calProgram c k = .move x) :
    calProgram c (nextSub k) = .wait := by
  revert h; fin_cases k <;> simp [calProgram, nextSub]

theorem autoProgram_nextSub_of_move {c : Params} {k : Fin 21} {x : U32} (h : autoProgram c k = .move x) :
    autoProgram c (nextSub k) = .wait := by
  revert h; fin_cases k <;> simp [autoProgram, nextSub]

/-- The current sub-state depends on the parameters and the supervisor alone. -/
theorem currentSub_congr {s t : State} (hcfg : t.cfg = s.cfg) (hsup : t.sup = s.sup) : currentSub t = currentSub s := by
  rw [currentSub, currentSub, hcfg, hsup]

/-- In both programs a MOVE is followed by a WAIT (R196, R197). -/
theorem currentSub_advanced_of_move {s : State} {x : U32} (h : currentSub s = some (.move x)) :
    currentSub { s with sup := s.sup.advanced } = some .wait := by
  cases hm : s.sup.mode with
  | manual => simp [currentSub, hm] at h
  | calibration =>
    have hmove : calProgram s.cfg s.sup.subCal = .move x := by simpa [currentSub, hm] using h
    simp [currentSub, Supervisor.advanced, hm, calProgram_nextSub_of_move hmove]
  | automatic =>
    have hmove : autoProgram s.cfg s.sup.subAuto = .move x := by simpa [currentSub, hm] using h
    simp [currentSub, Supervisor.advanced, hm, autoProgram_nextSub_of_move hmove]

/-- At a WAIT without the signal no operation but a change of mode moves the supervisor (R200). -/
theorem exec_sup_of_waiting {i : Instr} {s t : State} (h : exec i s = .next t) (hwait : currentSub s = some .wait)
    (hmc : s.motionComplete = false) (hmode : ∀ n m, i = .setMode n → modeOf n = some m → m = s.sup.mode) :
    t.sup = s.sup := by
  by_cases hset : ∃ n, i = .setMode n
  · obtain ⟨n, rfl⟩ := hset
    cases hm : modeOf n with
    | none => cases (exec_setMode_unnamed hm).symm.trans h; rfl
    | some m => cases (exec_setMode_same (hmode n m rfl hm ▸ hm)).symm.trans h; rfl
  by_cases hstep : ∃ btnH btnV swH swV, i = .supervisorStep btnH btnV swH swV
  · obtain ⟨btnH, btnV, swH, swV, rfl⟩ := hstep
    cases (exec_supervisorStep_of_currentSub hwait btnH btnV swH swV).symm.trans h
    rw [respond_sup, runSubState_wait_unset hmc]
  · exact exec_sup h (by simpa using hset) (by simpa using hstep)

/-- From a WAIT without the signal a counter that has moved has a controller step inside the deadzone before it (R205). -/
theorem exists_controllerInDeadzone_of_moved {ops : List Instr} {s u : State} (hwait : currentSub s = some .wait)
    (hmc : s.motionComplete = false) (hmode : ∀ n m, .setMode n ∈ ops → modeOf n = some m → m = s.sup.mode)
    (h : runOps ops s = some u) (hmoved : counter u.sup ≠ counter s.sup) :
    ∃ before i rest r, ops = before ++ i :: rest ∧ runOps before s = some r ∧ counter r.sup = counter s.sup ∧
      ControllerInDeadzone r i := by
  induction ops generalizing s with
  | nil => cases h; exact absurd rfl hmoved
  | cons i ops ih =>
    by_cases hi : ControllerInDeadzone s i
    · exact ⟨[], i, ops, s, rfl, rfl, rfl, hi⟩
    obtain ⟨t, ht, hrest⟩ := runOps_cons_eq_some_iff.mp h
    have hsup : t.sup = s.sup := exec_sup_of_waiting ht hwait hmc fun n m hn => hmode n m (hn ▸ List.mem_cons_self)
    have hmct : t.motionComplete = false := Bool.eq_false_iff.mpr fun hset => hi (controllerInDeadzone_of_sets ht hmc hset)
    have hwaitt : currentSub t = some .wait := (currentSub_congr (exec_cfg ht) hsup).trans hwait
    rw [← hsup] at hmode hmoved
    obtain ⟨before, j, rest, r, hops, hrun, hcounter, hj⟩ :=
      ih hwaitt hmct (fun n m hn => hmode n m (List.mem_cons_of_mem i hn)) hrest hmoved
    exact ⟨i :: before, j, rest, r, by rw [hops]; rfl, runOps_cons_eq_some_iff.mpr ⟨t, ht, hrun⟩, hsup ▸ hcounter, hj⟩

/-- Settles O55: the MOVE clears the signal and enters a WAIT, which stays until the controller sets the signal again. -/
theorem waitNeedsFreshCompletion : Obligations.WaitNeedsFreshCompletion := by
  intro btnH btnV swH swV s t x hmove h
  cases (exec_supervisorStep_of_currentSub hmove btnH btnV swH swV).symm.trans h
  rw [runSubState_move]
  have hwait := currentSub_advanced_of_move hmove
  refine ⟨hwait, rfl, fun ops u hmode hrun _ hmoved => exists_controllerInDeadzone_of_moved hwait rfl ?_ hrun hmoved⟩
  intro n m hn hm
  exact (hmode n m hn hm).trans s.sup.advanced_mode.symm

end Sys2Proof.Machine

namespace Sys2Proof.Machine

open Sys2Proof.Claims Sys2Proof.Safety

/-! ### A rotation (R202) -/

theorem runOps_append (ops more : List Instr) (s : State) : runOps (ops ++ more) s = (runOps ops s).bind (runOps more) := by
  induction ops generalizing s with
  | nil => rfl
  | cons i ops ih =>
    rw [List.cons_append, runOps, runOps]
    cases exec i s with
    | next t => exact ih t
    | fault | refused => rfl

/-- The supervisor step that the claims about programs repeat: no button, no switch. -/
def idleStep : Instr := .supervisorStep false false false false

theorem exec_idleStep {s : State} {k : SubState} (h : currentSub s = some k) :
    exec idleStep s = .next (respond .none (runSubState k s)) := exec_supervisorStep_of_currentSub h _ _ _ _

/-- Only the Automatic program has a ROT_START (R196, R197). -/
theorem mode_of_rotStart {s : State} {k : Fin 4} (h : currentSub s = some (.rotStart k)) : s.sup.mode = .automatic := by
  cases hm : s.sup.mode with
  | manual => simp [currentSub, hm] at h
  | calibration => simp [currentSub, hm, calProgram_ne_rotStart] at h
  | automatic => rfl

/-- An advance in Automatic is one step up (R198). -/
theorem subAuto_advanced {s : State} {k : SubState} (hk : currentSub s = some k) (hidle : k ≠ .idle)
    (hm : s.sup.mode = .automatic) : s.sup.advanced.subAuto.val = s.sup.subAuto.val + 1 := by
  obtain ⟨hcal, -⟩ | ⟨-, hauto, -⟩ := advanced_counters hk hidle
  · simp [hm] at hcal
  · exact hauto

/-- The state with another rotation count. -/
def State.withRotCount (s : State) (n : U32) : State := { s with sup := { s.sup with rotCount := n } }

/-- The state that the last ROTATING step leaves: Idle to the horizontal axis, the counter at 0, an advance (R202). -/
def State.rotationEnded (s : State) : State :=
  { s with
    srv := { s.srv with h := s.srv.h.driven s.cfg .h .idle 0 }
    sup := { s.sup.advanced with rotCount := 0 } }

theorem rotationEnded_withRotCount (s : State) (n : U32) : (s.withRotCount n).rotationEnded = s.rotationEnded := by
  simp only [State.rotationEnded, State.withRotCount, Supervisor.advanced_rotCount]

section Rotating

variable {s : State}

theorem exec_idleStep_counts (hk : currentSub s = some .rotating) (hresp : s.resp = .none) (h : 1 < s.sup.rotCount.toNat) :
    exec idleStep s = .next (s.withRotCount (ofU32 (s.sup.rotCount.toNat - 1))) := by
  rw [exec_idleStep hk, runSubState_rotating_counts h, respond, State.withRotCount, hresp]

theorem exec_idleStep_ends (hk : currentSub s = some .rotating) (hresp : s.resp = .none) (h : s.sup.rotCount.toNat ≤ 1) :
    exec idleStep s = .next s.rotationEnded := by
  rw [exec_idleStep hk, runSubState_rotating_last h, respond, State.rotationEnded, hresp]

/-- While the counter is above 1 a ROTATING step only counts it down, so `j` of them take `j` off it. -/
theorem runOps_rotating_counts (hk : currentSub s = some .rotating) (hresp : s.resp = .none) {j : Nat}
    (hj : j < s.sup.rotCount.toNat) :
    runOps (List.replicate j idleStep) s = some (s.withRotCount (ofU32 (s.sup.rotCount.toNat - j))) := by
  induction j generalizing s with
  | zero => simp [runOps, State.withRotCount, ofU32]
  | succ j ih =>
    have hcount : (ofU32 (s.sup.rotCount.toNat - 1)).toNat = s.sup.rotCount.toNat - 1 := toNat_ofU32 (by omega)
    have hrest := ih (s := s.withRotCount (ofU32 (s.sup.rotCount.toNat - 1))) hk hresp
      (by simp only [State.withRotCount, hcount]; omega)
    rw [List.replicate_succ, runOps_cons_eq_some_iff]
    refine ⟨_, exec_idleStep_counts hk hresp (by omega), hrest.trans ?_⟩
    simp only [State.withRotCount, hcount, Nat.sub_sub, Nat.add_comm 1 j]

/-- With its counter at `n` a rotation ends with the `n`-th ROTATING step. -/
theorem runOps_rotating_ends (hk : currentSub s = some .rotating) (hresp : s.resp = .none) (hpos : 0 < s.sup.rotCount.toNat) :
    runOps (List.replicate s.sup.rotCount.toNat idleStep) s = some s.rotationEnded := by
  obtain ⟨n, hn⟩ := Nat.exists_eq_add_of_le' hpos
  have hone : s.sup.rotCount.toNat - n = 1 := by omega
  have hcounts := runOps_rotating_counts hk hresp (j := n) (by omega)
  rw [hone] at hcounts
  have hlast := exec_idleStep_ends (s := s.withRotCount (ofU32 1)) hk hresp (by simp [State.withRotCount, ofU32])
  rw [hn, List.replicate_succ', runOps_append, hcounts, Option.bind_some, runOps_cons_eq_some_iff]
  exact ⟨_, hlast, congrArg some (rotationEnded_withRotCount s _)⟩

end Rotating

/-- The state `t` is at the start of the rotation `k` that the ROT_START of `s` begins: the drive command, the count, and a
ROTATING sub-state one further (R202). -/
structure RotationBegun (k : Fin 4) (s t : State) : Prop where
  rotating : currentSub t = some .rotating
  mode : t.sup.mode = .automatic
  resp : t.resp = .none
  count : t.sup.rotCount.toNat = s.cfg.rotSteps.get k
  sub : t.sup.subAuto.val = s.sup.subAuto.val + 1
  dir : (t.servo .h).cmdDir = (s.cfg.rotDir.get k).toDir
  mag : (t.servo .h).cmdMag.toNat = magOf s.cfg.rotMag

theorem exec_idleStep_begins {s : State} {k : Fin 4} (hc : s.cfg.Valid) (hk : currentSub s = some (.rotStart k)) :
    ∃ t, exec idleStep s = .next t ∧ RotationBegun k s t := by
  have hm := mode_of_rotStart hk
  have hd := Servo.driven_driveOf hc .h (s.cfg.rotDir.get k).toDir s.cfg.rotMag s.srv.h
  have hrotating : currentSub { s with sup := s.sup.advanced } = some .rotating :=
    (atRotating_iff { s with sup := s.sup.advanced }).mp ((atRotating_advanced_iff hk).mpr ⟨k, rfl⟩)
  refine ⟨_, exec_idleStep hk, ?_⟩
  rw [runSubState_rotStart]
  exact
    { rotating := hrotating
      mode := s.sup.advanced_mode.trans hm
      resp := rfl
      count := toNat_ofU32 (hc.rot_u32 k)
      sub := subAuto_advanced hk nofun hm
      dir := hd.cmd_dir
      mag := hd.cmd_mag }

/-- Settles O53: the ROT_START leaves the counter at `ROT_STEPS[k]`, and the ROTATING steps count it down to the last one. -/
theorem rotationLasts : Obligations.RotationLasts := by
  intro s k j hc _ hk hj
  obtain ⟨t, hstart, ht⟩ := exec_idleStep_begins hc hk
  have hcount := ht.count
  have hsub := ht.sub
  have hpos := hc.rot_pos k
  have hmax := hc.rot_u32 k
  rcases Nat.lt_or_ge j t.sup.rotCount.toNat with hlt | hge
  · have hrun := runOps_rotating_counts ht.rotating ht.resp hlt
    rw [hcount] at hrun
    refine ⟨_, runOps_cons_eq_some_iff.mpr ⟨t, hstart, hrun⟩, fun _ => ⟨ht.dir, ht.mag, ?_, hsub⟩, fun h => by omega⟩
    exact toNat_ofU32 (by omega)
  · obtain rfl : j = t.sup.rotCount.toNat := by omega
    have hrun := runOps_rotating_ends ht.rotating ht.resp (by omega)
    have hlast := subAuto_advanced ht.rotating nofun ht.mode
    exact ⟨_, runOps_cons_eq_some_iff.mpr ⟨t, hstart, hrun⟩, fun h => by omega,
      fun _ => ⟨rfl, rfl, rfl, hlast.trans (by omega)⟩⟩

/-! ### How long the programs take (R207)

A program's remaining steps, every WAIT being satisfied: one for each sub-state before IDLE, and `ROT_STEPS[k] - 1` more for each
rotation still to come, or what is left of the one in progress. Each satisfied step takes one off. -/

/-- What a rotation of `n` steps, whose ROTATING sub-state stands at `place`, adds to the steps left at `sub` with the counter at
`count`. -/
def rotationExtra (place n sub count : Nat) : Nat :=
  if sub < place then n - 1 else if sub = place then count - 1 else 0

/-- The steps left in Automatic at place `k` with the rotation counter at `count`. -/
def autoStepsLeft (c : Params) (k count : Nat) : Nat :=
  20 - k + rotationExtra 4 c.rotSteps.r0 k count + rotationExtra 8 c.rotSteps.r1 k count +
    rotationExtra 12 c.rotSteps.r2 k count + rotationExtra 16 c.rotSteps.r3 k count

/-- The satisfied steps from the current sub-state to IDLE (R196, R197). -/
def stepsLeft (c : Params) (u : Supervisor) : Nat :=
  match u.mode with
  | .manual => 0
  | .calibration => 8 - u.subCal.val
  | .automatic => autoStepsLeft c u.subAuto.val u.rotCount.toNat

/-- An advance that neither leaves nor enters the rotation's ROTATING sub-state keeps what it adds. -/
theorem rotationExtra_succ {place sub : Nat} (h : sub ≠ place) (h' : sub + 1 ≠ place) (n count count' : Nat) :
    rotationExtra place n (sub + 1) count' = rotationExtra place n sub count := by
  unfold rotationExtra
  split_ifs <;> omega

/-- An advance beside the rotations takes one step off. -/
theorem autoStepsLeft_advance (c : Params) {k : Nat} (hk : k < 20) (hhere : k ≠ 4 ∧ k ≠ 8 ∧ k ≠ 12 ∧ k ≠ 16)
    (hnext : k + 1 ≠ 4 ∧ k + 1 ≠ 8 ∧ k + 1 ≠ 12 ∧ k + 1 ≠ 16) (count count' : Nat) :
    autoStepsLeft c (k + 1) count' + 1 = autoStepsLeft c k count := by
  obtain ⟨h0, h1, h2, h3⟩ := hhere
  obtain ⟨h0', h1', h2', h3'⟩ := hnext
  simp only [autoStepsLeft, rotationExtra_succ h0 h0' _ count count', rotationExtra_succ h1 h1' _ count count',
    rotationExtra_succ h2 h2' _ count count', rotationExtra_succ h3 h3' _ count count']
  omega

/-- A ROT_START takes one step off: its rotation stands whole before it and after it. -/
theorem autoStepsLeft_enter (c : Params) (r : Fin 4) {k : Nat} (hk : k + 1 = 4 * (r.val + 1)) (count : Nat) :
    autoStepsLeft c (k + 1) (c.rotSteps.get r) + 1 = autoStepsLeft c k count := by
  obtain rfl : k = 4 * r.val + 3 := by omega
  match r with
  | 0 | 1 | 2 | 3 =>
    simp [autoStepsLeft, rotationExtra, PerRotation.get]
    omega

/-- A ROTATING step that counts down takes one step off. -/
theorem autoStepsLeft_count (c : Params) {k count : Nat} (hk : k = 4 ∨ k = 8 ∨ k = 12 ∨ k = 16) (hcount : 1 < count) :
    autoStepsLeft c k (count - 1) + 1 = autoStepsLeft c k count := by
  obtain rfl | rfl | rfl | rfl := hk
  all_goals
    simp [autoStepsLeft, rotationExtra]
    omega

/-- The last ROTATING step takes one step off. -/
theorem autoStepsLeft_leave (c : Params) {k count : Nat} (hk : k = 4 ∨ k = 8 ∨ k = 12 ∨ k = 16) (hcount : count ≤ 1)
    (count' : Nat) : autoStepsLeft c (k + 1) count' + 1 = autoStepsLeft c k count := by
  obtain rfl | rfl | rfl | rfl := hk
  all_goals
    simp [autoStepsLeft, rotationExtra]
    omega

theorem autoProgram_eq_rotStart_iff (c : Params) (k : Fin 21) (r : Fin 4) :
    autoProgram c k = .rotStart r ↔ k.val + 1 = 4 * (r.val + 1) := by
  fin_cases k <;> simp [autoProgram] <;> omega

theorem autoProgram_eq_idle_iff (c : Params) (k : Fin 21) : autoProgram c k = .idle ↔ k = 20 := by
  fin_cases k <;> simp [autoProgram]

theorem calProgram_eq_idle_iff (c : Params) (k : Fin 9) : calProgram c k = .idle ↔ k = 8 := by
  fin_cases k <;> simp [calProgram]

/-- A ROTATING sub-state stands at a place of R197. -/
theorem place_of_rotating {s : State} (h : currentSub s = some .rotating) :
    s.sup.mode = .automatic ∧
      (s.sup.subAuto.val = 4 ∨ s.sup.subAuto.val = 8 ∨ s.sup.subAuto.val = 12 ∨ s.sup.subAuto.val = 16) := by
  cases hm : s.sup.mode with
  | manual => simp [currentSub, hm] at h
  | calibration => simp [currentSub, hm, calProgram_ne_rotating] at h
  | automatic => simpa [currentSub, hm, autoProgram_eq_rotating_iff, Fin.ext_iff] using h

theorem stepsLeft_of_automatic {u : Supervisor} (h : u.mode = .automatic) (c : Params) :
    stepsLeft c u = autoStepsLeft c u.subAuto.val u.rotCount.toNat := by rw [stepsLeft, h]

theorem stepsLeft_with_rotCount {u : Supervisor} (h : u.mode = .automatic) (c : Params) (n : U32) :
    stepsLeft c { u with rotCount := n } = autoStepsLeft c u.subAuto.val n.toNat :=
  stepsLeft_of_automatic (u := { u with rotCount := n }) h c

theorem stepsLeft_of_calibration {u : Supervisor} (h : u.mode = .calibration) (c : Params) :
    stepsLeft c u = 8 - u.subCal.val := by rw [stepsLeft, h]

/-- An advance from a sub-state that is no part of a rotation and not IDLE takes one step off. -/
theorem stepsLeft_advanced {s : State} {k : SubState} (hk : currentSub s = some k) (hidle : k ≠ .idle) (hrot : k ≠ .rotating)
    (hstart : ∀ r, k ≠ .rotStart r) : stepsLeft s.cfg s.sup.advanced + 1 = stepsLeft s.cfg s.sup := by
  obtain ⟨hm, hup, -⟩ | ⟨hm, hup, -⟩ := advanced_counters hk hidle
  · have hlast := s.sup.advanced.subCal.isLt
    simp only [stepsLeft, Supervisor.advanced_mode, hm, hup]
    omega
  · have hk' : autoProgram s.cfg s.sup.subAuto = k := by simpa [currentSub, hm] using hk
    have hlast := s.sup.advanced.subAuto.isLt
    have hhere := (autoProgram_eq_rotating_iff s.cfg s.sup.subAuto).not.mp (hk' ▸ hrot)
    have hnext (r : Fin 4) := (autoProgram_eq_rotStart_iff s.cfg s.sup.subAuto r).not.mp (hk' ▸ hstart r)
    rw [stepsLeft_of_automatic (s.sup.advanced_mode.trans hm), stepsLeft_of_automatic hm, hup]
    refine autoStepsLeft_advance s.cfg (by omega) (by omega) ⟨hnext 0, hnext 1, hnext 2, hnext 3⟩ _ _

/-- A satisfied step of a sub-state before IDLE takes one step off. -/
theorem stepsLeft_runSubState {s : State} (hc : s.cfg.Valid) (hmc : s.motionComplete = true) {k : SubState}
    (hk : currentSub s = some k) (hidle : k ≠ .idle) : stepsLeft s.cfg (runSubState k s).sup + 1 = stepsLeft s.cfg s.sup := by
  cases k with
  | enable => rw [runSubState_enable]; exact stepsLeft_advanced hk nofun nofun nofun
  | disable => rw [runSubState_disable]; exact stepsLeft_advanced hk nofun nofun nofun
  | move x => rw [runSubState_move]; exact stepsLeft_advanced hk nofun nofun nofun
  | wait => rw [runSubState_wait_set hmc]; exact stepsLeft_advanced hk nofun nofun nofun
  | rotStart r =>
    have hm := mode_of_rotStart hk
    have hplace := (autoProgram_eq_rotStart_iff s.cfg s.sup.subAuto r).mp (by simpa [currentSub, hm] using hk)
    have hsup : (runSubState (.rotStart r) s).sup = { s.sup.advanced with rotCount := ofU32 (s.cfg.rotSteps.get r) } := by
      rw [runSubState_rotStart]
    rw [hsup, stepsLeft_with_rotCount (s.sup.advanced_mode.trans hm), stepsLeft_of_automatic hm, subAuto_advanced hk nofun hm,
      toNat_ofU32 (hc.rot_u32 r)]
    exact autoStepsLeft_enter s.cfg r hplace _
  | rotating =>
    obtain ⟨hm, hplace⟩ := place_of_rotating hk
    obtain h | h := Nat.lt_or_ge 1 s.sup.rotCount.toNat
    · have hsup : (runSubState .rotating s).sup = { s.sup with rotCount := ofU32 (s.sup.rotCount.toNat - 1) } := by
        rw [runSubState_rotating_counts h]
      rw [hsup, stepsLeft_with_rotCount hm, stepsLeft_of_automatic hm, toNat_ofU32 (by omega)]
      exact autoStepsLeft_count s.cfg hplace h
    · have hsup : (runSubState .rotating s).sup = { s.sup.advanced with rotCount := 0 } := by
        rw [runSubState_rotating_last h]
      rw [hsup, stepsLeft_with_rotCount (s.sup.advanced_mode.trans hm), stepsLeft_of_automatic hm, subAuto_advanced hk nofun hm]
      exact autoStepsLeft_leave s.cfg hplace h _
  | idle => exact absurd rfl hidle

theorem autoStepsLeft_eq_zero_iff (c : Params) {k : Nat} (hk : k < 21) (count : Nat) : autoStepsLeft c k count = 0 ↔ k = 20 := by
  refine ⟨fun h => ?_, fun h => ?_⟩
  · unfold autoStepsLeft at h
    omega
  · subst h
    simp [autoStepsLeft, rotationExtra]

/-- At IDLE no step is left. -/
theorem stepsLeft_of_idle {s : State} (h : currentSub s = some .idle) : stepsLeft s.cfg s.sup = 0 := by
  cases hm : s.sup.mode with
  | manual => simp [currentSub, hm] at h
  | calibration =>
    have hlast : s.sup.subCal = 8 := by simpa [currentSub, hm, calProgram_eq_idle_iff] using h
    rw [stepsLeft_of_calibration hm, hlast]; rfl
  | automatic =>
    have hlast : s.sup.subAuto = 20 := by simpa [currentSub, hm, autoProgram_eq_idle_iff] using h
    rw [stepsLeft_of_automatic hm, autoStepsLeft_eq_zero_iff s.cfg s.sup.subAuto.isLt, hlast]; rfl

theorem satisfiedSteps_succ {s : State} {k : SubState} (h : currentSub s = some k) (n : Nat) :
    satisfiedSteps (n + 1) s = satisfiedSteps n (respond .none (runSubState k { s with motionComplete := true })) := by
  rw [satisfiedSteps, exec_supervisorStep_of_currentSub (s := { s with motionComplete := true }) h]

/-- In a mode with a program every satisfied step takes one off the steps left. -/
theorem stepsLeft_satisfiedSteps {s : State} (hc : s.cfg.Valid) (hm : s.sup.mode ≠ .manual) {n : Nat}
    (hn : n ≤ stepsLeft s.cfg s.sup) :
    (satisfiedSteps n s).sup.mode = s.sup.mode ∧ stepsLeft s.cfg (satisfiedSteps n s).sup = stepsLeft s.cfg s.sup - n := by
  induction n generalizing s with
  | zero => exact ⟨rfl, rfl⟩
  | succ n ih =>
    obtain ⟨k, hk⟩ : ∃ k, currentSub s = some k := Option.ne_none_iff_exists'.mp (currentSub_eq_none_iff.not.mpr hm)
    have hidle : k ≠ .idle := by
      rintro rfl
      have hzero := stepsLeft_of_idle hk
      omega
    have hone := stepsLeft_runSubState (s := { s with motionComplete := true }) hc rfl hk hidle
    have hcfg := runSubState_cfg k { s with motionComplete := true }
    have hmode := runSubState_mode k { s with motionComplete := true }
    rw [satisfiedSteps_succ hk]
    generalize ht : respond .none (runSubState k { s with motionComplete := true }) = t
    have hone' : stepsLeft s.cfg t.sup + 1 = stepsLeft s.cfg s.sup := by rw [← ht]; exact hone
    have hcfg' : t.cfg = s.cfg := by rw [← ht]; exact hcfg
    have hmode' : t.sup.mode = s.sup.mode := by rw [← ht]; exact hmode
    have hrest := ih (s := t) (hcfg' ▸ hc) (hmode' ▸ hm) (by rw [hcfg']; omega)
    rw [hcfg', hmode'] at hrest
    exact ⟨hrest.1, hrest.2.trans (by omega)⟩

theorem autoStepsLeft_zero {c : Params} (hc : c.Valid) (count : Nat) :
    autoStepsLeft c 0 count = 16 + c.rotSteps.r0 + c.rotSteps.r1 + c.rotSteps.r2 + c.rotSteps.r3 := by
  have h0 : 1 ≤ c.rotSteps.r0 := hc.rot_pos 0
  have h1 : 1 ≤ c.rotSteps.r1 := hc.rot_pos 1
  have h2 : 1 ≤ c.rotSteps.r2 := hc.rot_pos 2
  have h3 : 1 ≤ c.rotSteps.r3 := hc.rot_pos 3
  simp [autoStepsLeft, rotationExtra]
  omega

/-- Settles O56: both programs are at IDLE exactly when no step is left, and each satisfied step takes one off. -/
theorem programStepCounts : Obligations.ProgramStepCounts := by
  intro s hc _
  refine ⟨fun hm hsub k hk => ?calibration, fun hm hsub k hk => ?automatic⟩
  case calibration =>
    have hstart : stepsLeft s.cfg s.sup = 8 := by rw [stepsLeft_of_calibration hm, hsub]; rfl
    obtain ⟨hmode, hleft⟩ := stepsLeft_satisfiedSteps hc (by simp [hm]) (hk.trans hstart.ge)
    rw [stepsLeft_of_calibration (hmode.trans hm), hstart] at hleft
    omega
  case automatic =>
    have hstart := stepsLeft_of_automatic hm s.cfg
    rw [hsub, Fin.val_zero, autoStepsLeft_zero hc] at hstart
    obtain ⟨hmode, hleft⟩ := stepsLeft_satisfiedSteps hc (by simp [hm]) (hk.trans hstart.ge)
    rw [stepsLeft_of_automatic (hmode.trans hm), hstart] at hleft
    have hidle := autoStepsLeft_eq_zero_iff s.cfg (satisfiedSteps k s).sup.subAuto.isLt (satisfiedSteps k s).sup.rotCount.toNat
    rw [hleft] at hidle
    omega

end Sys2Proof.Machine

namespace Sys2Proof.Machine

open Sys2Proof.Claims Sys2Proof.Safety

/-! ### A tick inside a drive command (R70, R275) -/

theorem Servo.driven_withPhaseOf (b b' : Servo) (c : Params) (a : Axis) (dir : Dir) (m : Int) :
    (b.withPhaseOf b').driven c a dir m = (b.driven c a dir m).withPhaseOf b' := rfl

/-- A drive command after a tick is the command with the phase of the tick (R101, R105). -/
theorem Servo.driven_ticked (b : Servo) (c : Params) (a : Axis) (dir : Dir) (m : Int) :
    b.ticked.driven c a dir m = (b.driven c a dir m).withPhaseOf b.ticked := by
  calc b.ticked.driven c a dir m
      = (b.withPhaseOf b.ticked).driven c a dir m := by rw [← b.ticked_eq_withPhaseOf]
    _ = (b.driven c a dir m).withPhaseOf b.ticked := b.driven_withPhaseOf b.ticked c a dir m

/-- No tick reads the direction (R105). -/
theorem Servo.ticked_with_cmdDir (b : Servo) (dir : Dir) :
    ({ b with cmdDir := dir } : Servo).ticked = { b.ticked with cmdDir := dir } := by
  unfold Servo.ticked Servo.tickOn Servo.tickOff
  dsimp only
  split_ifs <;> rfl

/-- A tick writes banks and outputs only (R104). -/
theorem tick_frame (s : State) : tick s = { s with srv := (tick s).srv, out := (tick s).out } := by
  unfold tick; split <;> rfl

/-- Two states that differ in banks and outputs at most are equal when these are, axis by axis. -/
theorem eq_of_axes {s t : State} (h : t = { s with srv := t.srv, out := t.out }) (hservo : ∀ a, s.servo a = t.servo a)
    (hchannel : ∀ a, s.channel a = t.channel a) : s = t := by
  rw [h, ← PerAxis.ext_get hservo, ← PerAxis.ext_get hchannel]

theorem setServo_restore (s : State) (a : Axis) (b : Servo) : (s.setServo a b).setServo a (s.servo a) = s := by
  cases a <;> rfl

section TornTick

variable (p : Torn) (d : DriveCommand) (s : State)

/-- The bank that a tick inside the command sees on the command's axis (R70). -/
def DriveCommand.tornBank : Servo := Servo.torn p (s.servo d.axis) ((d.apply s).servo d.axis)

theorem halfApplied_eq : d.halfApplied p s = s.setServo d.axis (d.tornBank p s) := rfl

/-- A tick inside a command writes banks and outputs only. -/
theorem tornTick_frame : tornTick p d s = { s with srv := (tornTick p d s).srv, out := (tornTick p d s).out } := by
  unfold tornTick
  rw [tick_frame]
  rfl

theorem driveCommand_apply_frame : d.apply s = { s with srv := (d.apply s).srv, out := (d.apply s).out } := rfl

/-- While `estop` is set a tick inside a command does nothing (R107). -/
theorem tornTick_stopped (h : s.estop = true) : tornTick p d s = s := by
  have hbank : (s.servo d.axis).withPhaseOf (d.tornBank p s) = s.servo d.axis := by
    simp [DriveCommand.tornBank, Servo.torn, Servo.withPhaseOf, DriveCommand.apply, Servo.driven]
  rw [tornTick, halfApplied_eq, tick_stopped (s := s.setServo d.axis (d.tornBank p s)) h, servo_setServo_self, hbank,
    setServo_restore]

variable {s} (h : s.estop = false)
include h

/-- The command's axis takes the phase of the ticked torn bank. -/
theorem servo_tornTick_self : (tornTick p d s).servo d.axis = (s.servo d.axis).withPhaseOf (d.tornBank p s).ticked := by
  rw [tornTick, servo_setServo_self, halfApplied_eq,
    servo_tick_running (s := s.setServo d.axis (d.tornBank p s)) h, servo_setServo_self]

/-- The other axis is ticked. -/
theorem servo_tornTick_ne {a : Axis} (ha : a ≠ d.axis) : (tornTick p d s).servo a = (s.servo a).ticked := by
  rw [tornTick, servo_setServo_ne _ _ ha, halfApplied_eq,
    servo_tick_running (s := s.setServo d.axis (d.tornBank p s)) h, servo_setServo_ne _ _ ha]

theorem channel_tornTick_self :
    (tornTick p d s).channel d.axis = { s.channel d.axis with pw := (d.tornBank p s).ticked.width } := by
  have hrun : (d.halfApplied p s).estop = false := h
  calc (tornTick p d s).channel d.axis
      = (tick (d.halfApplied p s)).channel d.axis := rfl
    _ = { s.channel d.axis with pw := (d.tornBank p s).ticked.width } := by
      rw [channel_tick_running hrun, halfApplied_eq, servo_setServo_self]; rfl

theorem channel_tornTick_ne {a : Axis} (ha : a ≠ d.axis) :
    (tornTick p d s).channel a = { s.channel a with pw := (s.servo a).ticked.width } := by
  have hrun : (d.halfApplied p s).estop = false := h
  calc (tornTick p d s).channel a
      = (tick (d.halfApplied p s)).channel a := rfl
    _ = { s.channel a with pw := (s.servo a).ticked.width } := by
      rw [channel_tick_running hrun, halfApplied_eq, servo_setServo_ne _ _ ha]; rfl

end TornTick

theorem servo_driveCommand_apply_self (d : DriveCommand) (s : State) :
    (d.apply s).servo d.axis = (s.servo d.axis).driven s.cfg d.axis d.dir d.mag := servo_applyDrive_self s _ _ _

theorem servo_driveCommand_apply_ne (d : DriveCommand) (s : State) {a : Axis} (ha : a ≠ d.axis) :
    (d.apply s).servo a = s.servo a := servo_applyDrive_ne s _ _ ha

theorem channel_driveCommand_apply (d : DriveCommand) (s : State) (a : Axis) : (d.apply s).channel a = s.channel a := rfl

/-- A tick that sees every field new sees the commanded bank. -/
theorem tornBank_new (d : DriveCommand) (s : State) : d.tornBank ⟨true, true, true⟩ s = (d.apply s).servo d.axis := rfl

/-- A tick that sees every field old sees the old bank but for the direction, which no tick reads. -/
theorem tornBank_old {d : DriveCommand} {s : State} (h : BankInv s.cfg d.axis (s.servo d.axis)) (hc : s.cfg.Valid) :
    d.tornBank ⟨false, false, false⟩ s = { s.servo d.axis with cmdDir := d.dir } := by
  have hon : ofU32 s.cfg.onTicks = (s.servo d.axis).onPeriod :=
    BitVec.eq_of_toNat_eq ((toNat_ofU32 hc.on_u32).trans h.on_period.symm)
  rw [DriveCommand.tornBank, servo_driveCommand_apply_self, Servo.torn, Servo.driven, hon]
  rfl

/-- The tick sees the whole command: the command comes first (R70). -/
theorem apply_tornTick_new (d : DriveCommand) (s : State) : d.apply (tornTick ⟨true, true, true⟩ d s) = tick (d.apply s) := by
  cases hs : s.estop with
  | true => rw [tornTick_stopped _ d s hs, tick_stopped (s := d.apply s) hs]
  | false =>
    have hs' : (d.apply s).estop = false := hs
    refine eq_of_axes ?frame (fun a => ?servo) fun a => ?channel
    case frame => rw [driveCommand_apply_frame, tornTick_frame, tick_frame]; rfl
    case servo =>
      rw [servo_tick_running hs']
      by_cases ha : a = d.axis
      · subst ha
        rw [servo_driveCommand_apply_self, servo_tornTick_self _ d hs, Servo.driven_withPhaseOf, tornBank_new, tornTick_cfg,
          servo_driveCommand_apply_self, ← Servo.ticked_eq_withPhaseOf]
      · rw [servo_driveCommand_apply_ne d _ ha, servo_tornTick_ne _ d hs ha, servo_driveCommand_apply_ne d _ ha]
    case channel =>
      rw [channel_driveCommand_apply, channel_tick_running hs', channel_driveCommand_apply]
      by_cases ha : a = d.axis
      · subst ha; rw [channel_tornTick_self _ d hs, tornBank_new]
      · rw [channel_tornTick_ne _ d hs ha, servo_driveCommand_apply_ne d _ ha]

/-- The tick sees nothing of the command: the tick comes first (R70). -/
theorem apply_tornTick_old {d : DriveCommand} {s : State} (hbank : BankInv s.cfg d.axis (s.servo d.axis)) (hc : s.cfg.Valid) :
    d.apply (tornTick ⟨false, false, false⟩ d s) = d.apply (tick s) := by
  cases hs : s.estop with
  | true => rw [tornTick_stopped _ d s hs, tick_stopped hs]
  | false =>
    have hticked : (d.tornBank ⟨false, false, false⟩ s).ticked = { (s.servo d.axis).ticked with cmdDir := d.dir } := by
      rw [tornBank_old hbank hc, Servo.ticked_with_cmdDir]
    refine eq_of_axes ?frame (fun a => ?servo) fun a => ?channel
    case frame => rw [driveCommand_apply_frame, tick_frame, driveCommand_apply_frame, tornTick_frame]; rfl
    case servo =>
      by_cases ha : a = d.axis
      · subst ha
        rw [servo_driveCommand_apply_self, servo_driveCommand_apply_self, servo_tornTick_self _ d hs, servo_tick_running hs,
          Servo.driven_withPhaseOf, Servo.driven_ticked, tornTick_cfg, tick_cfg, hticked]
        rfl
      · rw [servo_driveCommand_apply_ne d _ ha, servo_driveCommand_apply_ne d _ ha, servo_tornTick_ne _ d hs ha,
          servo_tick_running hs]
    case channel =>
      rw [channel_driveCommand_apply, channel_driveCommand_apply, channel_tick_running hs]
      by_cases ha : a = d.axis
      · subst ha; rw [channel_tornTick_self _ d hs, hticked]; rfl
      · rw [channel_tornTick_ne _ d hs ha]

/-! ### Any number of ticks inside the commands of an operation (R70, log 17) -/

/-- The states have the same parameters and the same banks but for the phases and the counts. -/
structure SameCommands (s t : State) : Prop where
  cfg : t.cfg = s.cfg
  bank : ∀ a, t.servo a = (s.servo a).withPhaseOf (t.servo a)

theorem SameCommands.refl (s : State) : SameCommands s s := ⟨rfl, fun _ => rfl⟩

theorem SameCommands.trans {s t u : State} (h : SameCommands s t) (h' : SameCommands t u) : SameCommands s u where
  cfg := h'.cfg.trans h.cfg
  bank a := by
    calc u.servo a
        = (t.servo a).withPhaseOf (u.servo a) := h'.bank a
      _ = ((s.servo a).withPhaseOf (t.servo a)).withPhaseOf (u.servo a) := by rw [← h.bank a]
      _ = (s.servo a).withPhaseOf (u.servo a) := rfl

theorem SameCommands.apply {s t : State} (h : SameCommands s t) (d : DriveCommand) : SameCommands (d.apply s) (d.apply t) where
  cfg := h.cfg
  bank a := by
    by_cases ha : a = d.axis
    · subst ha
      rw [servo_driveCommand_apply_self, servo_driveCommand_apply_self, h.cfg, h.bank d.axis]
      rfl
    · rw [servo_driveCommand_apply_ne d _ ha, servo_driveCommand_apply_ne d _ ha]
      exact h.bank a

theorem SameCommands.applyAll {s t : State} (h : SameCommands s t) (ds : List DriveCommand) :
    SameCommands (applyAll ds s) (applyAll ds t) := by
  induction ds generalizing s t with
  | nil => exact h
  | cons d ds ih => exact ih (h.apply d)

theorem sameCommands_tornTick (p : Torn) (d : DriveCommand) (s : State) : SameCommands s (tornTick p d s) := by
  cases hs : s.estop with
  | true => rw [tornTick_stopped p d s hs]; exact .refl s
  | false =>
    refine ⟨tornTick_cfg p d s, fun a => ?_⟩
    by_cases ha : a = d.axis
    · subst ha; rw [servo_tornTick_self p d hs]; rfl
    · rw [servo_tornTick_ne p d hs ha]; exact Servo.ticked_eq_withPhaseOf _

/-- A torn run leaves the banks of the commands applied in order, but for the phases and the counts. -/
theorem tornDrives_sameCommands {ds : List DriveCommand} {n : Nat} {s u : State} (h : TornDrives ds n s u) :
    SameCommands (applyAll ds s) u := by
  induction h with
  | done s => exact .refl s
  | tick p d ds n s u _ ih => exact ((sameCommands_tornTick p d s).applyAll (d :: ds)).trans ih
  | apply d ds n s u _ ih => exact ih

theorem tornDrives_estop {ds : List DriveCommand} {n : Nat} {s u : State} (h : TornDrives ds n s u) : u.estop = s.estop := by
  induction h with
  | done s => rfl
  | tick p d ds n s u _ ih => exact ih.trans (tornTick_estop p d s)
  | apply d ds n s u _ ih => exact ih

/-- No tick falls inside an operation that applies no command. -/
theorem tornDrives_nil {n : Nat} {s u : State} (h : TornDrives [] n s u) : n = 0 := by
  cases h; rfl

/-- The widths of a torn bank are one of its axis, whichever fields the tick sees new. -/
theorem widthOfAxis_tornBank {s : State} (h : DrivesInv s) (p : Torn) (d : DriveCommand) :
    widthOfAxis s.cfg d.axis (d.tornBank p s).ticked.width := by
  have hold := h.bank d.axis
  have hnew := (h.apply d).bank d.axis
  refine widthOfAxis_width ?idle ?active
  case idle => rw [Servo.ticked_idlePw]; exact hnew.idle_pw
  case active =>
    rw [Servo.ticked_activePw]
    unfold DriveCommand.tornBank Servo.torn
    dsimp only
    split
    · exact ⟨_, hnew.active_pw⟩
    · exact ⟨_, hold.active_pw⟩

/-- The phase that a torn tick leaves is in range: either off period is at most a frame. -/
theorem phaseInv_tornBank {s : State} (h : DrivesInv s) (p : Torn) (d : DriveCommand) :
    PhaseInv s.cfg (d.tornBank p s).ticked := by
  have hold := h.bank d.axis
  have hnew := (h.apply d).bank d.axis
  refine phaseInv_ticked h.cfg hnew.on_period ?_
  unfold DriveCommand.tornBank Servo.torn
  dsimp only
  split
  · exact hnew.offPeriod_le
  · exact hold.offPeriod_le

theorem drivesInv_tornTick {s : State} (h : DrivesInv s) (p : Torn) (d : DriveCommand) : DrivesInv (tornTick p d s) := by
  cases hs : s.estop with
  | true => rw [tornTick_stopped p d s hs]; exact h
  | false =>
    have hticked := h.tick
    refine ⟨by rw [tornTick_cfg]; exact h.cfg, fun a => ?bank, fun a => ?width, fun a => ?enable⟩
    case bank =>
      rw [tornTick_cfg]
      by_cases ha : a = d.axis
      · subst ha; rw [servo_tornTick_self p d hs]; exact (h.bank d.axis).withPhaseOf (phaseInv_tornBank h p d)
      · rw [servo_tornTick_ne p d hs ha]; exact (h.bank a).ticked h.cfg
    case width =>
      rw [tornTick_cfg]
      by_cases ha : a = d.axis
      · subst ha; rw [channel_tornTick_self p d hs]; exact widthOfAxis_tornBank h p d
      · have hb := (h.bank a).ticked h.cfg
        rw [channel_tornTick_ne p d hs ha]
        exact widthOfAxis_width hb.idle_pw ⟨_, hb.active_pw⟩
    case enable =>
      rw [tornTick_estop, ← h.enable a]
      by_cases ha : a = d.axis
      · subst ha; rw [channel_tornTick_self p d hs]
      · rw [channel_tornTick_ne p d hs ha]

theorem tornDrives_drivesInv {ds : List DriveCommand} {n : Nat} {s u : State} (h : TornDrives ds n s u) (hs : DrivesInv s) :
    DrivesInv u := by
  induction h with
  | done s => exact hs
  | tick p d ds n s u _ ih => exact ih (drivesInv_tornTick hs p d)
  | apply d ds n s u _ ih => exact ih (hs.apply d)

/-- An operation with no tick inside its commands is the operation (R65). -/
theorem withDrivesOf_of_tornDrives_zero {i : Instr} {s t u : State} (h : exec i s = .next t) (htick : i ≠ .tick)
    (hstop : i ≠ .disableAll) (hu : TornDrives (driveCommands i s) 0 s u) : t.withDrivesOf u = t := by
  obtain ⟨hsrv, hout⟩ := exec_drives h htick hstop
  rw [tornDrives_zero hu, State.withDrivesOf, ← hsrv, applyAll_out, ← hout]

/-- An operation with ticks inside its commands keeps the invariants, and leaves each bank as it would without but for the phase and
the count. -/
theorem inv_withDrivesOf {i : Instr} {n : Nat} {s t u : State} (hs : Inv s) (h : exec i s = .next t) (hn : 0 < n)
    (hu : TornDrives (driveCommands i s) n s u) :
    Inv (t.withDrivesOf u) ∧ ∀ a, u.servo a = (t.servo a).withPhaseOf (u.servo a) := by
  have htick : i ≠ .tick := by rintro rfl; exact hn.ne' (tornDrives_nil hu)
  have hstop : i ≠ .disableAll := by rintro rfl; exact hn.ne' (tornDrives_nil hu)
  obtain ⟨hsrv, -⟩ := exec_drives h htick hstop
  have hsame := tornDrives_sameCommands hu
  have hcfg : u.cfg = s.cfg := hsame.cfg.trans (applyAll_cfg _ s)
  have ht := exec_keeps_inv h hs
  refine ⟨?inv, fun a => ?bank⟩
  case inv =>
    have hdrives : DrivesInv (t.withDrivesOf u) := (tornDrives_drivesInv hu hs.drives).congr ((exec_cfg h).trans hcfg.symm) rfl rfl
      ((exec_estop h hstop).trans (tornDrives_estop hu).symm)
    exact ⟨hdrives.cfg, hdrives.bank, hdrives.width, hdrives.enable, ht.ctl, ht.sup, ht.fresh⟩
  case bank =>
    have hbank : (applyAll (driveCommands i s) s).servo a = t.servo a := by rw [State.servo, State.servo, hsrv]
    rw [← hbank]
    exact hsame.bank a

/-- Settles O60: the two orders of one tick, and the torn runs of any number of ticks by what each torn tick keeps. -/
theorem tornTickAdmitsBothOrders : Obligations.TornTickAdmitsBothOrders :=
  ⟨apply_tornTick_new, fun d _ hs => apply_tornTick_old (hs.bank d.axis) hs.cfg,
    fun _ _ _ _ h htick hstop hu => withDrivesOf_of_tornDrives_zero h htick hstop hu,
    fun _ _ _ _ _ hs h hn hu => inv_withDrivesOf hs h hn hu⟩

end Sys2Proof.Machine

namespace Sys2Proof.Asm

open Sys2Proof.Machine Sys2Proof.Claims

/-! ### The fields of an assembled pattern (R83) -/

theorem toNat_append_eq {m n : Nat} (x : BitVec m) (y : BitVec n) : (x ++ y).toNat = x.toNat * 2 ^ n + y.toNat := by
  rw [BitVec.toNat_append, ← Nat.shiftLeft_add_eq_or_of_lt y.isLt, Nat.shiftLeft_eq]

section Pattern

variable (s : Bool) {e f : Nat} (he : e < 2 ^ 8) (hf : f < 2 ^ 23)

include he hf

theorem toNat_pattern32 : (pattern32 s e f).toNat = (s.toNat * 2 ^ 8 + e) * 2 ^ 23 + f := by
  rw [pattern32, BitVec.toNat_cast, toNat_append_eq, toNat_append_eq, BitVec.toNat_ofBool, BitVec.toNat_ofNat,
    BitVec.toNat_ofNat, Nat.mod_eq_of_lt he, Nat.mod_eq_of_lt hf]

theorem expField_pattern32 : expField (pattern32 s e f) = e := by
  rw [expField, toNat_pattern32 s he hf]
  omega

theorem fracField_pattern32 : fracField (pattern32 s e f) = f := by
  rw [fracField, toNat_pattern32 s he hf]
  omega

end Pattern

theorem sign_pattern32 (s : Bool) (e f : Nat) : (pattern32 s e f).getLsbD 31 = s := by
  rw [pattern32, BitVec.getLsbD_cast, BitVec.getLsbD_append, if_neg (by decide), BitVec.getLsbD_append, if_neg (by decide)]
  cases s <;> rfl

/-! ### Finite patterns as multiples of `2^(-149)` (R83)

Every finite binary32 value is `±N × 2^(-149)` for a natural number `N`, and `patternOfScaled` finds a pattern from `N`. -/

/-- The `N` of a finite pattern. -/
def scaledMagnitude (v : U32) : Nat := if expField v = 0 then fracField v else (2 ^ 23 + fracField v) * 2 ^ (expField v - 1)

/-- The sign of a value as a factor. -/
def signFactor (s : Bool) : Rat := if s then -1 else 1

theorem abs_signFactor_mul (s : Bool) {q : Rat} (h : 0 ≤ q) : |signFactor s * q| = q := by
  cases s <;> simp [signFactor, abs_of_nonneg h]

theorem binary32_of_finite {v : U32} (h : expField v ≠ 255) :
    binary32 v = .finite (signFactor (v.getLsbD 31) * ((scaledMagnitude v : Rat) / 2 ^ 149)) := by
  rw [binary32_eq, scaledMagnitude]
  by_cases hzero : expField v = 0
  · have hpow : (2 : Rat) ^ (-149 : Int) = 1 / 2 ^ 149 := by rw [zpow_neg, one_div]; rfl
    rw [if_pos hzero, if_pos hzero, binaryValue, hpow, signFactor]
    ring_nf
  · have hpow : (2 : Rat) ^ ((expField v : Int) - 150) = 2 ^ (expField v - 1) / 2 ^ 149 := by
      have hexp : (expField v : Int) - 150 = (expField v - 1 : Nat) - (149 : Nat) := by omega
      rw [hexp, zpow_sub₀ two_ne_zero, zpow_natCast, zpow_natCast]
    rw [if_neg hzero, if_neg h, if_neg hzero, binaryValue, hpow, signFactor]
    push_cast
    ring_nf

theorem expField_ne_of_finite {v : U32} {q : Rat} (h : binary32 v = .finite q) : expField v ≠ 255 := by
  intro he
  rw [binary32_eq, if_neg (by omega), if_pos he] at h
  split at h
  · split at h <;> cases h
  · cases h

/-- The 24 leading bits of a number of at least `2^23`: the significand of a normal pattern. -/
theorem significand_bounds {n k : Nat} (hn : 2 ^ 23 ≤ n) (hk : n.log2 - 23 = k) :
    2 ^ 23 ≤ n / 2 ^ k ∧ n / 2 ^ k < 2 ^ 24 := by
  have hlog : n.log2 = 23 + k := by
    have := (Nat.le_log2 (k := 23) (by omega)).mpr hn
    omega
  obtain ⟨hlow, hhigh⟩ := (Nat.log2_eq_iff (by omega)).mp hlog
  rw [Nat.le_div_iff_mul_le (Nat.two_pow_pos k), Nat.div_lt_iff_lt_mul (Nat.two_pow_pos k), ← pow_add, ← pow_add]
  exact ⟨hlow, hhigh.trans_eq (congrArg _ (by omega))⟩

/-- What is found for `N` is a finite pattern of the sign with this `N`. -/
theorem patternOfScaled_eq_some {s : Bool} {n : Nat} {g : U32} (h : patternOfScaled s n = some g) :
    g.getLsbD 31 = s ∧ expField g ≠ 255 ∧ scaledMagnitude g = n := by
  unfold patternOfScaled at h
  split at h
  case isTrue hn =>
    obtain rfl := Option.some_inj.mp h
    have he := expField_pattern32 s (e := 0) (by decide) hn
    refine ⟨sign_pattern32 s 0 n, by omega, ?_⟩
    rw [scaledMagnitude, if_pos he, fracField_pattern32 s (by decide) hn]
  case isFalse hn =>
    dsimp only at h
    split at h
    case isFalse => cases h
    case isTrue hk =>
      obtain ⟨hdvd, hmax⟩ := hk
      obtain rfl := Option.some_inj.mp h
      obtain ⟨hlow, hhigh⟩ := significand_bounds (not_lt.mp hn) rfl
      generalize n.log2 - 23 = k at *
      have hdecomp : n / 2 ^ k * 2 ^ k = n := Nat.div_mul_cancel (Nat.dvd_of_mod_eq_zero hdvd)
      have hf : n / 2 ^ k - 2 ^ 23 < 2 ^ 23 := by omega
      have he : k + 1 < 2 ^ 8 := by omega
      have hexp := expField_pattern32 s he hf
      refine ⟨sign_pattern32 s _ _, by omega, ?_⟩
      rw [scaledMagnitude, if_neg (by omega), hexp, fracField_pattern32 s he hf, Nat.add_sub_cancel' hlow,
        Nat.add_sub_cancel, hdecomp]

/-- For the `N` of a finite pattern one is found. -/
theorem patternOfScaled_scaledMagnitude_ne_none (s : Bool) {v : U32} (h : expField v ≠ 255) :
    patternOfScaled s (scaledMagnitude v) ≠ none := by
  have hfrac : fracField v < 2 ^ 23 := Nat.mod_lt _ (by decide)
  have hexp : expField v < 2 ^ 8 := Nat.mod_lt _ (by decide)
  unfold patternOfScaled scaledMagnitude
  by_cases hzero : expField v = 0
  · rw [if_pos hzero, if_pos hfrac]
    exact Option.some_ne_none _
  · rw [if_neg hzero]
    generalize hk : expField v - 1 = k
    have hlow : 2 ^ (23 + k) ≤ (2 ^ 23 + fracField v) * 2 ^ k := by
      rw [pow_add]; exact Nat.mul_le_mul_right _ (by omega)
    have hhigh : (2 ^ 23 + fracField v) * 2 ^ k < 2 ^ (23 + k + 1) := by
      rw [show 23 + k + 1 = 24 + k by omega, pow_add]
      exact Nat.mul_lt_mul_of_pos_right (by omega) (Nat.two_pow_pos k)
    have hlarge : 2 ^ 23 ≤ (2 ^ 23 + fracField v) * 2 ^ k := (Nat.pow_le_pow_right (by decide) (by omega)).trans hlow
    have hlog : ((2 ^ 23 + fracField v) * 2 ^ k).log2 = 23 + k := (Nat.log2_eq_iff (by omega)).mpr ⟨hlow, hhigh⟩
    rw [if_neg (by omega)]
    simp only [hlog, Nat.add_sub_cancel_left, Nat.mul_mod_left, true_and]
    rw [if_pos (by omega)]
    exact Option.some_ne_none _

/-! ### The pattern of a literal (R90) -/

/-- A literal is `N × 2^(-149)` exactly when `N` is what the assembler divides out. -/
theorem scaled_eq_literal_iff {n num den : Nat} (hden : den ≠ 0) :
    (n : Rat) / 2 ^ 149 = (num : Rat) / den ↔ n * den = num * 2 ^ 149 := by
  rw [div_eq_div_iff (by positivity) (by exact_mod_cast hden)]
  norm_cast

theorem patternOf_eq_some {s : Bool} {num den : Nat} (hden : den ≠ 0) {g : U32} (h : patternOf s num den = some g) :
    binary32 g = .finite (signFactor s * ((num : Rat) / den)) := by
  unfold patternOf at h
  split at h
  case isFalse => cases h
  case isTrue hdvd =>
    obtain ⟨hsign, hexp, hmag⟩ := patternOfScaled_eq_some h
    have hvalue : (scaledMagnitude g : Rat) / 2 ^ 149 = (num : Rat) / den := by
      rw [hmag, scaled_eq_literal_iff hden]
      exact Nat.div_mul_cancel (Nat.dvd_of_mod_eq_zero hdvd)
    rw [binary32_of_finite hexp, hsign, hvalue]

/-- A value that some pattern has is found, whatever that pattern's sign is: both zeros have the value 0. -/
theorem patternOf_ne_none {s : Bool} {num den : Nat} (hden : den ≠ 0) {g : U32}
    (h : binary32 g = .finite (signFactor s * ((num : Rat) / den))) : patternOf s num den ≠ none := by
  have hexp := expField_ne_of_finite h
  have hequal : signFactor (g.getLsbD 31) * ((scaledMagnitude g : Rat) / 2 ^ 149) = signFactor s * ((num : Rat) / den) := by
    rw [binary32_of_finite hexp] at h
    exact Machine.Float32.finite.inj h
  have hvalue : (scaledMagnitude g : Rat) / 2 ^ 149 = (num : Rat) / den := by
    have habs := congrArg abs hequal
    rwa [abs_signFactor_mul _ (by positivity), abs_signFactor_mul _ (by positivity)] at habs
  have hscaled := (scaled_eq_literal_iff hden).mp hvalue
  rw [patternOf, ← hscaled, Nat.mul_mod_left, if_pos rfl, Nat.mul_div_cancel _ (Nat.pos_of_ne_zero hden)]
  exact patternOfScaled_scaledMagnitude_ne_none s hexp

/-- Settles O7: a literal is scaled to the `N` of its value, whose pattern the assembler finds exactly when there is one. -/
theorem gainLiteralsExact : Obligations.GainLiteralsExact := fun _ _ _ hden =>
  ⟨fun _ h => patternOf_eq_some hden h, fun hnone _ h => patternOf_ne_none hden h hnone⟩

end Sys2Proof.Asm
